-- ==== Sys2Proof/Word.lean ====
section
/-! DEFINITION. The words of the GR-332: the 16-bit store word (R157), the five-bit relay code
character (R5), and the index of one of the 32 circuits. -/

namespace Sys2Proof

/-- One word of the office message store: 16 bits (chapter 0, section 5; R157). -/
abbrev Word := BitVec 16

/-- A relay code value, 0 to 31, code bit 0 first on the line (R5, section 11.9). -/
abbrev RelayChar := BitVec 5

/-- A store address: the P-port and the M-port carry 20 address lines (chapter 0, section 3). -/
abbrev Address := BitVec 20

/-- A circuit number, 0 to 31. -/
abbrev Circuit := Fin 32

end Sys2Proof
end

