-- ==== Sys2Proof/Syntax.lean ====
section
/-! DEFINITION. The commands of the GR-332: one constructor per row of spec/opcode_table.json, in the
table's order. A command is one indivisible step of the part (95_what_each_step_holds.md): a reset, a
tick, an event of a line, of a timer or of the store path, or a processor write. The operands are what
the step takes from outside the part: the levels on its input pins, and the address and data of a
processor cycle. -/

namespace Sys2Proof

/-- The commands. Pin levels: `true` is mark on a receive input and current present on a loop-sense
input; in a 32-bit level operand, bit `c` is circuit `c`. The `argument` of a circuit command is the
high byte of the command word (section 11.3). -/
inductive Instr where
  /-- POWER_ON (R162): `strap` is the level of the three strap pins at the end of the reset. -/
  | powerOn (strap : Fin 8)
  /-- RELAY_RESET (R162). -/
  | relayReset (strap : Fin 8)
  /-- OFFICE_TICK (R1): the levels on the receive and loop-sense inputs at the tick (R13). -/
  | officeTick (receive loop : BitVec 32)
  /-- MINUTE_TICK (R182). -/
  | minuteTick
  /-- CHARACTER_RECEIVED (R7): `mark` is the level of the stop sample. -/
  | characterReceived (c : Circuit) (mark : Bool)
  /-- CHARACTER_BOUNDARY (R9). -/
  | characterBoundary (c : Circuit)
  /-- OPEN_RECEIVE_TRIP (R14). -/
  | openReceiveTrip (c : Circuit)
  /-- OPEN_RECEIVE_REARM (R14). -/
  | openReceiveRearm (c : Circuit)
  /-- SEND_LOOP_OPEN_TRIP (R15). -/
  | sendLoopOpenTrip (c : Circuit)
  /-- FRAMING_TRIP (R16). -/
  | framingTrip (c : Circuit)
  /-- SILENCE_EXPIRY (R36). -/
  | silenceExpiry (c : Circuit)
  /-- TEXT_CHARACTER_TAKEN (R39): the block writer's turn names the circuit. -/
  | textCharacterTaken
  /-- BLOCK_WRITE_DONE (R39). -/
  | blockWriteDone
  /-- TAKE_COMPLETE (R72). -/
  | takeComplete
  /-- ENDING_REACHED (R42). -/
  | endingReached
  /-- RETURN_WRITE_DONE (R73). -/
  | returnWriteDone
  /-- POST_TRIGGER (R59): the value written is not used, but it is stored. -/
  | postTrigger (value : Word)
  /-- WALK_READ_DONE (R61). -/
  | walkReadDone
  /-- WALK_END_WRITE_DONE (R62). -/
  | walkEndWriteDone
  /-- RELEASE_ORDER (R53). -/
  | releaseOrder (tag : Word)
  /-- CANCEL_ORDER (R54). -/
  | cancelOrder (tag : Word)
  /-- GIVE_ORDER (R69). -/
  | giveOrder (count : Word)
  /-- GIVE_STEP (R70). -/
  | giveStep
  /-- POOL_RESERVE_WRITE (R76). -/
  | poolReserveWrite (value : Word)
  /-- SPEED_SETTING_WRITE (R11). -/
  | speedSettingWrite (c : Circuit) (value : Word)
  /-- PROCESSOR_WRITE (R159): a processor write at any of the 2^20 addresses. -/
  | processorWrite (address : Address) (value : Word)
  /-- CONSUME_ORDER (R176). -/
  | consumeOrder (value : Word)
  /-- REPORT_WRITE_START (R175). -/
  | reportWriteStart
  /-- REPORT_WRITE_DONE (R175). -/
  | reportWriteDone
  /-- MIRROR_RUN (R180). -/
  | mirrorRun
  /-- COMMAND_CLEAR_WRITE (R164). -/
  | commandClearWrite
  /-- NO_COMMAND (R141): command code 0. -/
  | noCommand (c : Circuit) (argument : BitVec 8)
  /-- COMMAND_UNKNOWN (R141): a command code above 7. -/
  | commandUnknown (c : Circuit) (code argument : BitVec 8)
  /-- OPEN_COMMAND (R143). -/
  | openCommand (c : Circuit) (argument : BitVec 8)
  /-- CLOSE_COMMAND (R146). -/
  | closeCommand (c : Circuit) (argument : BitVec 8)
  /-- HOLD_COMMAND (R147). -/
  | holdCommand (c : Circuit) (argument : BitVec 8)
  /-- RESUME_COMMAND (R148). -/
  | resumeCommand (c : Circuit) (argument : BitVec 8)
  /-- CLEAR_FAULT_COMMAND (R149). -/
  | clearFaultCommand (c : Circuit) (argument : BitVec 8)
  /-- DIVERT_COMMAND (R150). -/
  | divertCommand (c : Circuit) (argument : BitVec 8)
  /-- STATION_RESET_COMMAND (R151): the argument names the station. -/
  | stationResetCommand (c : Circuit) (station : BitVec 8)
  /-- CHECK_PASSED (R144). -/
  | checkPassed (c : Circuit)
  /-- NO_LINE (R145). -/
  | noLine (c : Circuit)
  /-- RETRY_TIMER_EXPIRY (R154). -/
  | retryTimerExpiry (c : Circuit)
  /-- FETCH_BLOCK_READ_DONE (R105): the fetcher's turn names the circuit (R169). -/
  | fetchBlockReadDone
  /-- FETCH_TEXT_READ_DONE (R105). -/
  | fetchTextReadDone
  /-- ANSWER_TIMER_EXPIRY (R120). -/
  | answerTimerExpiry (c : Circuit)
  /-- POLL_TIMER_EXPIRY (R121). -/
  | pollTimerExpiry (c : Circuit)
  /-- DIVERT_STEP (R90). -/
  | divertStep (c : Circuit)
  /-- RECEIVE_SAMPLE_TICK (R4): `mark` is the level sampled. -/
  | receiveSampleTick (c : Circuit) (mark : Bool)
  /-- SEND_TICK (R9). -/
  | sendTick (c : Circuit)
  deriving DecidableEq, Repr

end Sys2Proof
end

