-- ==== Sys2Proof/Decode.lean ====
section
/-! DEFINITION. The words of the opcode table. No row of spec/opcode_table.json gives bits: the part is
commanded by events and by processor writes at addresses, not by coded words. -/

namespace Sys2Proof

/-- The command that a word spells by the table's bits. The table gives no row any bits, so no word
spells a command. -/
def decodeTableWord (_nbits _w : Nat) : Option Instr := none

end Sys2Proof
end

