-- ==== Sys2Proof/Config.lean ====
section
/-! DEFINITION. What is fixed for every GR-332 (the counts and limits the manual states), and what an
unwritten store word reads as. -/

namespace Sys2Proof.Config

/-- Blocks of the block area, 0 to 3583 (chapter 4). -/
def blocks : Nat := 3584

/-- Words of the relay area (R158). -/
def relayWords : Nat := 131072

/-- Reference clock cycles in one office tick (R1). -/
def cyclesPerOfficeTick : Nat := 24576

/-- Office ticks in one minute (R182). -/
def ticksPerMinute : Nat := 6000

/-- Characters that fit in a text FIFO (R39). -/
def textFifoPlaces : Nat := 16

/-- Characters that fit in a send FIFO (R99). -/
def sendFifoPlaces : Nat := 8

/-- Characters of a text FIFO at which block work is urgent (R168). -/
def urgentCharacters : Nat := 12

/-- Characters in one block (R39). -/
def blockCharacters : Nat := 60

/-- Reports that fit in the pending list (R173). -/
def pendingReports : Nat := 32

/-- Entries of the report ring (R173). -/
def ringEntries : Nat := 1024

/-- What a store word reads as that nothing has written since the store was powered. The manual gives
the store no contents (R161: it "may hold anything"). DESIGN CHOICE, unsafe: zero (log entry 3). -/
def unwrittenWord : Word := 0

end Sys2Proof.Config
end

