-- ==== Sys2Proof/Machine/State.lean ====
section
/-! DEFINITION. The state of the GR-332 as plain data: every register, FIFO, queue, count, timer, mark and
pin the manual names, the office message store behind the M-port, and the queue of commands that wait.
Counts and timers are `Nat`; what the manual numbers bit by bit is a bit vector. A timer is
`none` while stopped and `some n` while `n` office ticks are left, so `some 0` has run out and waits for its
expiry command. -/

namespace Sys2Proof.Machine

/-- Why the part would stop. It has no constructor: the manual describes no event after which the part
stops, and every address the part or the switch processor forms lies in the 1 Mi-word store. Safe. -/
inductive Fault where
  deriving DecidableEq

/-- Why a command has no meaning. -/
inductive Refusal where
  /-- Raised only by an arm of exec whose command the model does not cover yet. Safe: nothing can be
  proved about the command's effect. No arm raises it now. -/
  | notModelled (mnemonic : String)
  deriving DecidableEq, Repr

/-- The index of a message record, 0 to 127 (R44). -/
abbrev RecordIdx := Fin 128
/-- A way station of a party circuit, 0 to 7 (R117). -/
abbrev StationIdx := Fin 8
/-- A delivery slot of a record, 0 to 7 (R47). -/
abbrev SlotIdx := Fin 8
/-- A set of destination positions: bit i is position i (section 11.7). -/
abbrev PositionSet := BitVec 8
/-- A map from numbers to values held as the sorted list of the entries that differ from a default. -/
abbrev Sparse (α : Type) := List (Nat × α)

/-- Message precedence, highest first (chapter 0, section 5). -/
inductive Precedence where
  | t | u | r | s
  deriving DecidableEq, Repr

/-! ### The line unit (chapter 1) -/

/-- The receiver (R3 to R5). `confirming k`: k ticks since the first space sample. `assembling k bits`:
k ticks since the confirmation, and the data elements sampled so far. -/
inductive Receiver where
  | stopped
  | hunting
  | confirming (tick : Nat)
  | assembling (tick : Nat) (bits : RelayChar)
  deriving DecidableEq, Repr

/-- Who is told that a sent character has left the line (R9). -/
inductive CharSource where
  | sendController
  | dialogue
  deriving DecidableEq, Repr

/-- The transmitter (R8). `sending`: the character, the send ticks since its start element began, its
length in ticks (112, 120 or 128), and its source; a character whose source was broken off has none (R113). -/
inductive Transmitter where
  | idle
  | sending (char : RelayChar) (tick : Nat) (total : Nat) (source : Option CharSource)
  deriving DecidableEq, Repr

/-- A detector of the line watch (section 1.6). -/
inductive Detector where
  | armed
  | tripped
  deriving DecidableEq, Repr

/-- One circuit's line unit with its line watch. -/
structure LineUnit where
  /-- Receive and send phase accumulators (R2). -/
  rxAccumulator : BitVec 24
  txAccumulator : BitVec 24
  /-- The model's own: sample ticks the accumulators have produced that no tick command has taken yet (log 1). -/
  rxTicksDue : Nat
  txTicksDue : Nat
  /-- Effective speed and stop length codes (R2, R11). -/
  rxSpeed : Fin 6
  txSpeed : Fin 6
  txStop : Fin 3
  receiver : Receiver
  transmitter : Transmitter
  /-- Framing error count of the circuit status record (R6). -/
  framingErrors : Nat
  /-- Open-receive detector, its count of office ticks at space, and its run of receive ticks at mark (R14). -/
  openDetector : Detector
  openCount : Nat
  openMarkRun : Nat
  /-- Send-loop detector and its count (R15). -/
  loopDetector : Detector
  loopCount : Nat
  /-- Framing detector and the consecutive framing count (R16). -/
  framingDetector : Detector
  framingCount : Nat
  /-- The SETTING_HELD mark (R12). -/
  settingHeld : Bool
  /-- The receive and loop-sense input pins, as last seen by a command (log 4). -/
  receiveIn : Bool
  loopIn : Bool
  deriving DecidableEq, Repr

/-! ### The message recogniser and the text FIFO (chapter 2) -/

/-- The shift case (R20). -/
inductive Shift where
  | letters
  | figures
  deriving DecidableEq, Repr

/-- A received character with its mutilated mark and the case in force when it arrived (R20). -/
structure RxChar where
  value : RelayChar
  mutilated : Bool
  shift : Shift
  deriving DecidableEq, Repr

/-- The receive state (chapter 2). -/
inductive RxState where
  | hunt | headingLine | destLine | text | skipHeading | discard
  deriving DecidableEq, Repr

/-- The position reached within the heading line, with the heading fields under assembly (R23). The
Boolean of `afterSom` and `afterPrecedence` says that a SPACE has been read there. -/
inductive HeadPos where
  | afterSom (space : Bool)
  | channel (digits : List Nat)
  | afterChannel
  | afterPrecedence (space : Bool)
  | origin (first : RelayChar) (second : Option RelayChar)
  | afterOrigin
  deriving DecidableEq, Repr

/-- The token under assembly in DEST_LINE (R26). -/
inductive Token where
  | empty
  | one (first : RelayChar)
  | two (first second : RelayChar)
  | bad
  deriving DecidableEq, Repr

/-- The discard cause (R19); "none" is `Option.none`. -/
inductive DiscardCause where
  | length | poolEmpty | tableFull
  deriving DecidableEq, Repr

/-- How a message being received ended (R38). -/
inductive EndCause where
  | eom | missingEnd | silence | stopped | senderCancel
  deriving DecidableEq, Repr

/-- A message recogniser (R19). -/
structure Recogniser where
  state : RxState
  shift : Shift
  lineStart : Bool
  /-- The held list, oldest first, 0 to 8 characters (R27). -/
  held : List RxChar
  /-- Count of H letters matched in HUNT, 0 to 2 between characters (R21). -/
  somCount : Nat
  headPos : HeadPos
  token : Token
  filling : Option RecordIdx
  /-- Line feeds still to come in SKIP_HEADING, 1 or 2 (R24). -/
  lfToCome : Nat
  discardCause : Option DiscardCause
  dropped : Nat
  silence : Option Nat
  /-- Expected incoming channel number of a point circuit; `none` is ANY (R25). -/
  expected : Option Nat
  deriving DecidableEq, Repr

/-- What stands in a text FIFO: characters marked with their record, and the endings among them (R38, R39). -/
inductive FifoItem where
  | char (value : RelayChar) (record : RecordIdx)
  | ending (record : RecordIdx) (cause : EndCause)
  deriving DecidableEq, Repr

/-! ### The send side (chapter 6) -/

/-- A send queue entry with the sent length kept beside it (R96). -/
structure QueueEntry where
  record : RecordIdx
  slot : SlotIdx
  sentLength : Nat
  deriving DecidableEq, Repr

/-- A send queue, oldest entry first, and its queued-character count (R96). -/
structure Queue where
  entries : List QueueEntry
  count : Nat
  deriving DecidableEq, Repr

/-- The four send queues of a circuit (R96). -/
structure Queues where
  t : Queue
  u : Queue
  r : Queue
  s : Queue
  deriving DecidableEq, Repr

/-- The phase of a transmission; "NONE" is `idle` (R99). -/
inductive Phase where
  | idle | heading | dest | text | trailer | cancel | receipt
  deriving DecidableEq, Repr

/-- Why a cancel line is sent (R99). -/
inductive CancelCause where
  | preempt | order
  deriving DecidableEq, Repr

/-- The part of a block's fetch that its count-and-link read began: characters still to read from the
block, the text word reached, and the link word read (R105). -/
structure BlockFetch where
  left : Nat
  word : Nat
  link : Word
  deriving DecidableEq, Repr

/-- The fetch state (R105). `run` is none until the block's count and link have been read. -/
structure Fetch where
  block : Nat
  toFetch : Nat
  run : Option BlockFetch
  deriving DecidableEq, Repr

/-- A send controller (R99). -/
structure SendController where
  active : Option (RecordIdx × SlotIdx)
  phase : Phase
  /-- Characters of the phase that have left the line. -/
  position : Nat
  remaining : Nat
  channel : Option Nat
  cause : Option CancelCause
  pendingCancel : Bool
  fifo : List RelayChar
  fetch : Option Fetch
  deriving DecidableEq, Repr

/-! ### Party circuits (chapter 7) -/

/-- The ten dialogue states, in the order of their codes (chapter 7, section 11.3). -/
inductive DialogueState where
  | quiet | calling | answerWait | delivering | receiptWait
  | pollSending | pollWait | inbound | replying | cancelling
  deriving DecidableEq, Repr

/-- The reply owed to an inbound message (R118). -/
inductive Reply where
  | accepted | refused
  deriving DecidableEq, Repr

/-- Which poll reply the first character has fixed (R130). -/
inductive PollReply where
  | nothing | traffic
  deriving DecidableEq, Repr

/-- A party dialogue controller (R118). -/
structure Dialogue where
  state : DialogueState
  selected : Option StationIdx
  answerTimer : Option Nat
  pollTimer : Option Nat
  pollExpired : Bool
  rotation : StationIdx
  matchPos : Nat
  answerShift : Shift
  /-- The reply fixed by the first character of a poll answer (R130). -/
  pollReply : Option PollReply
  replyOwed : Option Reply
  /-- Characters of a select, poll or reply sequence that have left the line (R124, R130, R133). -/
  sequencePos : Nat
  /-- The line-end wait of an inbound message is running (R132). -/
  lineEndWait : Bool
  /-- Station of the last select or poll, shown in the circuit status (R118). -/
  lastStation : StationIdx
  deriving DecidableEq, Repr

/-- A station table entry (R117). `answering` is the station state; expected `none` is ANY. -/
structure Station where
  present : Bool
  pollEnable : Bool
  first : RelayChar
  second : RelayChar
  answering : Bool
  failures : Nat
  outgoing : Nat
  expected : Option Nat
  deriving DecidableEq, Repr

/-! ### The circuit controller (chapter 8) -/

/-- The circuit state, in the order of its codes (section 11.3). -/
inductive CircuitMode where
  | closed | checking | ready | held | fault | retryWait
  deriving DecidableEq, Repr

/-- The circuit kind of the effective settings (R139). -/
inductive Kind where
  | unused | point | party
  deriving DecidableEq, Repr

/-- The fault kinds (R139). -/
inductive FaultKind where
  | openReceive | sendLoopOpen | framing | noLine
  deriving DecidableEq, Repr

/-- The fault modes, in the order of their codes (R152). -/
inductive FaultMode where
  | latched | retry | report | ignore
  deriving DecidableEq, Repr

/-- The fault set: each kind present at most once (R139). -/
structure FaultSet where
  openReceive : Bool
  sendLoopOpen : Bool
  framing : Bool
  noLine : Bool
  deriving DecidableEq, Repr

/-- The effective settings (R139). -/
structure Effective where
  kind : Kind
  preemption : Bool
  openLineTime : Nat
  answerTimeout : Nat
  retryLimit : Nat
  pollInterval : Nat
  silenceLimit : Nat
  deriving DecidableEq, Repr

/-- A circuit controller (R139). -/
structure Controller where
  state : CircuitMode
  holdPending : Bool
  diverting : Bool
  faults : FaultSet
  retryCount : Nat
  retryTimer : Option Nat
  /-- The line check's mark run count and check count, and its NO_LINE reported flag (R144, R145). -/
  markRun : Nat
  checkCount : Nat
  noLineReported : Bool
  effective : Effective
  deriving DecidableEq, Repr

/-- The divert record of a circuit (R90). -/
structure DivertRecord where
  taken : Nat
  intercepted : Nat
  deriving DecidableEq, Repr

/-- Everything the part keeps once per circuit. -/
structure CircuitState where
  line : LineUnit
  recogniser : Recogniser
  /-- The text FIFO, head first (R39). -/
  textFifo : List FifoItem
  queues : Queues
  send : SendController
  /-- Outgoing channel counter of a point circuit (R102). -/
  outgoing : Nat
  dialogue : Dialogue
  stations : Vector Station 8
  control : Controller
  divert : DivertRecord
  deriving DecidableEq, Repr

/-- The fields of a circuit that its status record shows (R179), compared to find a change of one of them. -/
structure CircuitShown where
  state : CircuitMode
  holdPending : Bool
  diverting : Bool
  faults : FaultSet
  retryCount : Nat
  dialogue : DialogueState
  lastStation : StationIdx
  active : Option (RecordIdx × SlotIdx)
  remaining : Nat
  queued : List Nat
  outgoing : Nat
  expected : Option Nat
  stations : List (Bool × Nat × Option Nat)
  framingErrors : Nat
  deriving DecidableEq, Repr

/-! ### The message table (chapter 3) -/

/-- A two-letter code (section 11.2). -/
structure Code where
  first : RelayChar
  second : RelayChar
  deriving DecidableEq, Repr

/-- A position of a destination list (R26, R44). -/
inductive Dest where
  | code (code : Code)
  | badCode
  deriving DecidableEq, Repr

/-- The record state, in the order of its codes (section 11.7). -/
inductive RecordState where
  | free | filling | posting | routed | done
  deriving DecidableEq, Repr

/-- Where a message came from (R44); "none" is `Option.none`. -/
inductive Origin where
  | circuit (c : Circuit) (station : Option StationIdx)
  | posted
  deriving DecidableEq, Repr

/-- The heading error reason (R24, R44); "none" is `Option.none`. -/
inductive HeadingError where
  | badChannel | badPrecedence | badOrigin | noDestination
  deriving DecidableEq, Repr

/-- The state of a delivery; EMPTY is an absent delivery (R47). -/
inductive DeliveryState where
  | queued | active | done | cancelled
  deriving DecidableEq, Repr

/-- A delivery (R47). -/
structure Delivery where
  state : DeliveryState
  circuit : Circuit
  station : StationIdx
  codes : PositionSet
  attempts : Nat
  saved : Option Nat
  deriving DecidableEq, Repr

/-- The flags of a record (R44). -/
structure MessageFlags where
  posted : Bool
  isLocal : Bool
  intercept : Bool
  duplicate : Bool
  truncated : Bool
  lengthLimit : Bool
  missingEnd : Bool
  tooManyCodes : Bool
  headingError : Option HeadingError
  deriving DecidableEq, Repr

/-- A message record (R44). Its tag is `generation * 128 + index` (R45). -/
structure Message where
  generation : Nat
  state : RecordState
  precedence : Option Precedence
  origin : Option Origin
  channel : Option Nat
  originCode : Option Code
  destinations : List Dest
  textLength : Nat
  head : Option Nat
  tail : Option Nat
  blockCount : Nat
  receiptMinute : Option Word
  flags : MessageFlags
  mutilated : Nat
  localSet : PositionSet
  interceptSet : PositionSet
  hold : Bool
  slots : Vector (Option Delivery) 8
  overdueReported : Bool
  deriving DecidableEq, Repr

/-- The last post outcome (section 11.1). -/
inductive PostOutcome where
  | none | accepted | busy | tableFull | badPrecedence | badCodes | badChain | notKept | length
  deriving DecidableEq, Repr

/-- A post walk in progress (R61): its record, the head block posted, the block count wanted, the taken
count, the length sum, and the block to read next. When `ending` is set, every block has been taken and
`block` is the last one, whose link is to be written with 0xFFFF (R62). -/
structure Walk where
  record : RecordIdx
  head : Nat
  wanted : Nat
  taken : Nat
  sum : Nat
  block : Nat
  ending : Bool
  deriving DecidableEq, Repr

/-! ### The block writer and the pool (chapters 2 and 4) -/

/-- The block writer's state for one filling message (R39): its current block, fill position and
assembled word (the first character of a pair), and whether its sender has cancelled it (R29). -/
structure Fill where
  current : Option Nat
  position : Nat
  assembled : Option RelayChar
  cancelled : Bool
  deriving DecidableEq, Repr

/-- What follows a block writer store write (R39, R40, R42): nothing; the character at the head of circuit
c's FIFO leaves; the link that joins a new block has been written; the ended record is handed over. -/
inductive AfterWrite where
  | nothing
  | leave (c : Circuit) (r : RecordIdx)
  | joined (r : RecordIdx)
  | letGo (r : RecordIdx) (cause : EndCause)
  deriving DecidableEq, Repr

/-- A block writer store write at a relay area offset. -/
structure BlockWrite where
  offset : Nat
  value : Word
  after : AfterWrite
  deriving DecidableEq, Repr

/-- The block writer (R39 to R41): the circuit whose turn is next, the writes it has to make, oldest first,
and the waiting list, oldest first. -/
structure BlockWriter where
  turn : Circuit
  writes : List BlockWrite
  waiting : List RecordIdx
  deriving DecidableEq, Repr

/-- The owner of a block (R65). -/
inductive Owner where
  | processor
  | pool
  | message (r : RecordIdx)
  deriving DecidableEq, Repr

/-- A give build in progress (R69): the build position, the end of the clipped range (exclusive), and the
given and skipped counts. -/
structure Give where
  position : Nat
  stop : Nat
  given : Nat
  skipped : Nat
  deriving DecidableEq, Repr

/-- The block pool unit (R67 to R76). `take` is the record of the outstanding take; `returns` are the pending
return writes, each the old tail and the head block to be written into its link (R73); `suspension` is the
condition of R76. -/
structure Pool where
  head : Option Nat
  tail : Option Nat
  count : Nat
  take : Option RecordIdx
  returns : List (Nat × Nat)
  give : Option Give
  suspension : Bool
  deriving DecidableEq, Repr

/-! ### The store path and the reports (chapters 9 and 10) -/

/-- The requesters of the store arbiter in its usual order (R167, R168). -/
inductive Requester where
  | passage | blockWriter | fetcher | poolUnit | reportWriter | mirrorWriter
  deriving DecidableEq, Repr

/-- A member of the mirror writer's dirty sets, or the office status (R180). -/
inductive MirrorMember where
  | record (r : RecordIdx)
  | circuit (c : Circuit)
  | office
  deriving DecidableEq, Repr

/-- A run of the M-port (R167), with what its grant fixes: the write, the reading fetch, the words standing at
the grant. The store word of a passage write holds from its grant (R157). The take, the give step and the walk
runs are of the work that stands in the pool unit (R68), the report run of the report in the run (R175). -/
inductive Run where
  | passage
  | blockWrite (write : BlockWrite)
  | fetchBlock (c : Circuit) (fetch : Fetch)
  | fetchText (c : Circuit) (fetch : Fetch)
  | take
  | give
  | walkRead
  | walkEnd
  | returnWrite (tail head : Nat)
  | report
  | mirror (member : MirrorMember) (words : List Word)
  deriving DecidableEq, Repr

/-- The store arbiter (R167): FREE, or GRANTED, with the run that holds the M-port and how many of its cycles
have been made. The cycles still to be made are the rest (`State.cyclesLeft`). -/
inductive Arbiter where
  | free
  | granted (run : Run) (made : Nat)
  deriving DecidableEq, Repr

/-- A processor cycle at the P-port (R157). -/
inductive PortCycle where
  | read (address : Address)
  | write (address : Address) (value : Word)
  deriving DecidableEq, Repr

/-- The circuit and station of a report, or the office (R178). -/
inductive Place where
  | office
  | circuit (c : Circuit) (station : Option StationIdx)
  deriving DecidableEq, Repr

/-- The causes of a circuit state change, in the order of their codes 1 to 9 (R140). -/
inductive StateCause where
  | openCommand | checkPassed | lineFault | retryExpiry | clearFault | hold | holdDone | resume | close
  deriving DecidableEq, Repr

/-- Reasons that refuse a circuit command, in the order of their codes 1 to 5 (R141). -/
inductive CommandRefusal where
  | unknown | busy | wrongState | badSettings | badStation
  deriving DecidableEq, Repr

/-- Reasons that refuse a release or a cancel, in the order of their codes 1 to 4 (R53). -/
inductive ReleaseRefusal where
  | stale | free | filling | noHold
  deriving DecidableEq, Repr

/-- The report kinds with their details (R178). -/
inductive ReportKind where
  | messageIn (flags : Word)
  | messagePosted
  | postRefused (outcome : PostOutcome)
  | delivered (slot : SlotIdx) (channel : Nat)
  | messageFreed
  | sequence (expected : Nat)
  | circuitState (state : CircuitMode) (cause : StateCause)
  | lineFault (kind : FaultKind) (mode : FaultMode)
  | commandRefused (reason : CommandRefusal) (code : BitVec 8)
  | writeTrap (offset : Nat)
  | station (answering : Bool)
  | overdue
  | preempted
  | giveDone (skipped : Nat)
  | receiveLoss (tableFull : Bool) (dropped : Nat)
  | settingHeld
  | cancelledIn
  | releaseRefused (reason : ReleaseRefusal)
  | divertDone (taken intercepted : Nat)
  | codesIntercepted (positions : PositionSet)
  deriving DecidableEq, Repr

/-- A report as it was handed over (R174). `tag` is the message tag word (R186: GIVE_DONE's given count). -/
structure Report where
  place : Place
  tag : Word
  kind : ReportKind
  minute : Word
  deriving DecidableEq, Repr

/-- The report writer (R173) with the report of the run in progress (R175) and the attention output (R177). -/
structure ReportWriter where
  produce : Nat
  consume : Nat
  pending : List Report
  lost : Nat
  inRun : Option Report
  attention : Bool
  deriving DecidableEq, Repr

/-- The machine. -/
structure State where
  /-- The commands that wait, first in, first out: the model's own queue. -/
  pending : List Instr
  /-- Divider count of the office timer (R1). -/
  divider : Nat
  /-- The model's own: office ticks the divider has produced that no OFFICE_TICK has taken yet (log 1). -/
  officeTicksDue : Nat
  /-- Tick count and minute counter (R182). -/
  tickCount : Nat
  minute : Word
  circuits : Vector CircuitState 32
  messages : Vector Message 128
  fills : Vector Fill 128
  writer : BlockWriter
  pool : Pool
  /-- The ownership table: blocks not listed are PROCESSOR (R65). -/
  owners : Sparse Owner
  /-- Last post outcome, and the walk in progress; the post state is WALKING while there is one (R60). -/
  postOutcome : PostOutcome
  walk : Option Walk
  /-- The strap value, which places the relay area (R158). -/
  strap : Fin 8
  /-- The strap value kept from the last reset, with which a relay reset compares its own (R158, R162). -/
  strapBefore : Fin 8
  /-- The processor cycle that waits at the P-port for its grant (R157). -/
  waiting : Option PortCycle
  /-- The data last handed to the P-port for a processor read (R157, R171). -/
  readData : Option Word
  /-- The pending clear set (R164). -/
  pendingClear : Vector Bool 32
  /-- The shadows by relay area offset; an unlisted offset has its written mark clear (R160, R161). -/
  shadow : Sparse (Option Word)
  arbiter : Arbiter
  /-- The circuit whose send controller the text fetcher served last (R169). -/
  fetchLast : Circuit
  reports : ReportWriter
  /-- The mirror writer's dirty sets and mark (R179). -/
  messageDirty : Vector Bool 128
  circuitDirty : Vector Bool 32
  officeDirty : Bool
  /-- The office message store, by 20-bit address; unlisted words read `Config.unwrittenWord` (log 3). -/
  store : Sparse Word
  deriving DecidableEq, Repr

/-! ### Reset values -/

/-- R2, R3, R6, R8, R12 to R16: the line unit after a reset. -/
def LineUnit.reset : LineUnit :=
  { rxAccumulator := 0, txAccumulator := 0, rxTicksDue := 0, txTicksDue := 0
    rxSpeed := 0, txSpeed := 0, txStop := 0, receiver := .stopped, transmitter := .idle
    framingErrors := 0, openDetector := .armed, openCount := 0, openMarkRun := 0
    loopDetector := .armed, loopCount := 0, framingDetector := .armed, framingCount := 0
    settingHeld := false, receiveIn := true, loopIn := true }

/-- R19: the recogniser after a reset. -/
def Recogniser.reset : Recogniser :=
  { state := .hunt, shift := .letters, lineStart := true, held := [], somCount := 0
    headPos := .afterSom false, token := .empty, filling := none, lfToCome := 1
    discardCause := none, dropped := 0, silence := none, expected := none }

/-- R96: the four queues empty. -/
def Queues.empty : Queues := ⟨⟨[], 0⟩, ⟨[], 0⟩, ⟨[], 0⟩, ⟨[], 0⟩⟩

/-- R99: a send controller in phase NONE. -/
def SendController.none : SendController :=
  { active := Option.none, phase := .idle, position := 0, remaining := 0, channel := Option.none
    cause := Option.none, pendingCancel := false, fifo := [], fetch := Option.none }

/-- R118: the dialogue controller after a reset. -/
def Dialogue.reset : Dialogue :=
  { state := .quiet, selected := none, answerTimer := none, pollTimer := none, pollExpired := false
    rotation := 0, matchPos := 0, answerShift := .letters, pollReply := none, replyOwed := none
    sequencePos := 0, lineEndWait := false, lastStation := 0 }

/-- R117: a station entry after a reset; call letters A, A. -/
def Station.reset : Station :=
  { present := false, pollEnable := false, first := 6, second := 6, answering := true
    failures := 0, outgoing := 1, expected := none }

/-- R139: the empty fault set. -/
def FaultSet.empty : FaultSet := ⟨false, false, false, false⟩

/-- R139: the effective settings after a reset. -/
def Effective.reset : Effective :=
  { kind := .unused, preemption := false, openLineTime := 5, answerTimeout := 10, retryLimit := 1
    pollInterval := 1, silenceLimit := 0 }

/-- R139: the circuit controller after a reset. The mark run and check counts of the line check are 0 and the NO_LINE
reported flag is clear: DESIGN CHOICE (log 9), since R139 only stops the timers and R144 sets these three where a line
check begins. -/
def Controller.reset : Controller :=
  { state := .closed, holdPending := false, diverting := false, faults := .empty, retryCount := 0
    retryTimer := none, markRun := 0, checkCount := 0, noLineReported := false, effective := .reset }

/-- A circuit after a reset. -/
def CircuitState.reset : CircuitState :=
  { line := .reset, recogniser := .reset, textFifo := [], queues := .empty, send := .none
    outgoing := 1, dialogue := .reset, stations := Vector.replicate 8 .reset, control := .reset
    divert := ⟨0, 0⟩ }

/-- R44: no flag set. -/
def MessageFlags.clear : MessageFlags :=
  { posted := false, isLocal := false, intercept := false, duplicate := false, truncated := false
    lengthLimit := false, missingEnd := false, tooManyCodes := false, headingError := none }

/-- R44: a FREE record of the given generation. -/
def Message.free (generation : Nat) : Message :=
  { generation := generation, state := .free, precedence := none, origin := none, channel := none
    originCode := none, destinations := [], textLength := 0, head := none, tail := none
    blockCount := 0, receiptMinute := none, flags := .clear, mutilated := 0, localSet := 0
    interceptSet := 0, hold := false, slots := Vector.replicate 8 none, overdueReported := false }

/-- R45: the generations that power-on sets, 1 for record 0 and 0 for every other. -/
def Message.powerOnTable : Vector Message 128 := (Vector.replicate 128 (Message.free 0)).set 0 (Message.free 1)

/-- R39: the block writer holds nothing for the record. -/
def Fill.empty : Fill := { current := none, position := 0, assembled := none, cancelled := false }

/-- R39: the block writer after a reset. -/
def BlockWriter.reset : BlockWriter := { turn := 0, writes := [], waiting := [] }

/-- R67 to R69: the pool unit after a reset; the suspension condition is judged by the reset itself (R76). -/
def Pool.reset : Pool :=
  { head := none, tail := none, count := 0, take := none, returns := [], give := none
    suspension := false }

/-- R173, R177: the report writer after a reset. -/
def ReportWriter.reset : ReportWriter :=
  { produce := 0, consume := 0, pending := [], lost := 0, inRun := none, attention := false }

/-- The machine right after power-on: the strap pins at 0 (log 6), nothing written to the store (log 3), no
command waiting. -/
def State.reset : State :=
  { pending := [], divider := 0, officeTicksDue := 0, tickCount := 0, minute := 0
    circuits := Vector.replicate 32 .reset, messages := Message.powerOnTable
    fills := Vector.replicate 128 .empty, writer := .reset, pool := .reset, owners := []
    postOutcome := .none, walk := none, strap := 0, strapBefore := 0, waiting := none
    readData := none, pendingClear := Vector.replicate 32 false, shadow := [], arbiter := .free, fetchLast := 31
    reports := .reset, messageDirty := Vector.replicate 128 true
    circuitDirty := Vector.replicate 32 true, officeDirty := true, store := [] }

end Sys2Proof.Machine
end

