-- ==== Sys2Proof/Machine/Operands.lean ====
section
/-! DEFINITION. How words and characters are read: bit fields (R184), the relay code (section 11.9), the
fields of every processor-written word (sections 11.1 to 11.5), and the relay area offsets (R159). -/

namespace Sys2Proof.Machine

/-! ### Bit fields -/

/-- The field of `len` bits whose lowest bit is `lo` (R184). -/
def bitField (w : Word) (lo len : Nat) : Nat := (w.extractLsb' lo len).toNat

/-- One bit of a word. -/
def bitSet (w : Word) (i : Nat) : Bool := w.getLsbD i

def highByte (w : Word) : Nat := bitField w 8 8
def lowByte (w : Word) : Nat := bitField w 0 8

/-- A field value placed at bit `lo` of a word (R185). -/
def place (lo : Nat) (value : Nat) : Word := BitVec.ofNat 16 value <<< lo

/-- A one-bit field (R185). -/
def placeBool (lo : Nat) (b : Bool) : Word := place lo (if b then 1 else 0)

/-- A count shown saturated at the limit of a word (R185). -/
def shownCount (n : Nat) : Word := BitVec.ofNat 16 (min n 65535)

/-! ### The relay code (section 11.9) -/

def chBlank : RelayChar := 0
def chLF : RelayChar := 1
def chCR : RelayChar := 2
def chSpace : RelayChar := 3
def chFigs : RelayChar := 4
def chLtrs : RelayChar := 5
def chE : RelayChar := 10
def chH : RelayChar := 13
def chN : RelayChar := 19
def chP : RelayChar := 21
def chQ : RelayChar := 22
def chR : RelayChar := 23
def chS : RelayChar := 24
def chT : RelayChar := 25
def chU : RelayChar := 26

/-- The figures-case value of a decimal digit: 1 to 9 are values 6 to 14, and 0 is value 15 (R103). -/
def digitChar (d : Nat) : RelayChar := BitVec.ofNat 5 (if d = 0 then 15 else d + 5)

/-- The shift case after a character (R20): LTRS and FIGS change it at once, a mutilated BLANK never. -/
def shiftAfter (now : Shift) (value : RelayChar) (mutilated : Bool) : Shift :=
  if mutilated then now
  else if value = chLtrs then .letters
  else if value = chFigs then .figures
  else now

/-- A shift character (R20). -/
def RxChar.isShift (ch : RxChar) : Bool := !ch.mutilated && (ch.value = chLtrs || ch.value = chFigs)

/-- The character of one of the values 0 to 3, which mean the same in either case (R20). -/
def RxChar.isCommon (ch : RxChar) (value : RelayChar) : Bool := !ch.mutilated && ch.value = value

/-- A letter in letters case (R20): any of A to Z, values 6 to 31. -/
def RxChar.isLetter (ch : RxChar) : Bool :=
  !ch.mutilated && ch.shift = .letters && decide (6 ≤ ch.value.toNat)

/-- One particular letter in letters case (R20). -/
def RxChar.isTheLetter (ch : RxChar) (value : RelayChar) : Bool :=
  !ch.mutilated && ch.shift = .letters && ch.value = value

/-- The digit a character is, if it is one: figures case, values 6 to 15 (R20). -/
def RxChar.digit? (ch : RxChar) : Option Nat :=
  if !ch.mutilated && ch.shift = .figures && decide (6 ≤ ch.value.toNat) && decide (ch.value.toNat ≤ 15)
  then some ((ch.value.toNat - 5) % 10) else none

/-! ### Channel numbers (R25, R102) -/

/-- The number after n: 999 is followed by 1. -/
def nextChannel (n : Nat) : Nat := if n = 999 then 1 else n + 1

/-- The number before n: 1 is preceded by 999. -/
def previousChannel (n : Nat) : Nat := if n = 1 then 999 else n - 1

/-! ### Relay area offsets (R159, section 11) -/

def offReserve : Nat := 0x00000
def offMaxLength : Nat := 0x00001
def offOverdueTU : Nat := 0x00002
def offOverdueRS : Nat := 0x00003
def offOfficeStatus : Nat := 0x00010
def offPost : Nat := 0x00020
def offPostTrigger : Nat := 0x0002C
def offGiveFirst : Nat := 0x0002D
def offGiveCount : Nat := 0x0002E
def offRelease : Nat := 0x0002F
def offCancel : Nat := 0x00030
def offConsume : Nat := 0x00031
def offRing : Nat := 0x01000
def offDirectory : Nat := 0x02000
def offBlocks : Nat := 0x04000

/-- Word `w` of the record of circuit `c` (section 11.3). -/
def offCircuit (c : Circuit) (w : Nat) : Nat := 0x00400 + 32 * c.val + w

/-- The command word of circuit `c`. -/
def offCommand (c : Circuit) : Nat := offCircuit c 16

/-- Word `w` of block `b` (section 11.5). -/
def offBlock (b w : Nat) : Nat := offBlocks + 32 * b + w

/-- Word 0 of the route entry of a code (R78). -/
def offRoute (code : Code) : Nat :=
  0x00800 + 2 * ((code.first.toNat - 6) * 26 + (code.second.toNat - 6))

/-! ### Fields of the office and circuit settings (sections 11.1 and 11.3) -/

/-- R76: the pool reserve, with values above 3584 read as 3584. -/
def poolReserveOf (w : Word) : Nat := min w.toNat Config.blocks

/-- R33, R62: the maximum text length, with values below 60 read as 60. -/
def maxLengthOf (w : Word) : Nat := max w.toNat 60

/-- R2, R11: the speed code of settings word 1 if it is valid. -/
def speedOf (w : Word) : Option (Fin 6) :=
  if h : bitField w 0 4 < 6 then some ⟨bitField w 0 4, h⟩ else none

/-- R2, R11: the stop length code of settings word 1 if it is valid. -/
def stopOf (w : Word) : Option (Fin 3) :=
  if h : bitField w 4 2 < 3 then some ⟨bitField w 4 2, h⟩ else none

/-- The kind field of settings word 0: 1 point, 2 party, 0 and 3 unused. -/
def kindOf (w : Word) : Kind :=
  match bitField w 0 2 with
  | 1 => .point
  | 2 => .party
  | _ => .unused

/-- The fault mode field of settings word 0 (R152). -/
def faultModeOf (w : Word) : FaultMode :=
  match bitField w 4 2 with
  | 0 => .latched
  | 1 => .retry
  | 2 => .report
  | _ => .ignore

/-- The retry time of settings word 0 in office ticks (R154). -/
def retryTicksOf (w : Word) : Nat :=
  match bitField w 6 2 with
  | 0 => 500
  | 1 => 1500
  | 2 => 6000
  | _ => 30000

/-- R14, R139: the open-line time, below 5 read as 5. -/
def openLineTimeOf (w : Word) : Nat := max (lowByte w) 5

/-- R118: the answer timeout, below 10 read as 10. -/
def answerTimeoutOf (w : Word) : Nat := max (lowByte w) 10

/-- R118, R184: the retry limit, 0 read as 1 and above 7 as 7. -/
def retryLimitOf (w : Word) : Nat := min (max (bitField w 0 4) 1) 7

/-- R118: the poll interval in 100 ms units, 0 read as 1. -/
def pollIntervalOf (w : Word) : Nat := max (highByte w) 1

/-- A call letter field: 0 to 5 are read as 6 (R184). -/
def callLetterOf (field : Nat) : RelayChar := BitVec.ofNat 5 (max field 6)

/-- R117: a station entry filled at OPEN from its settings word; the outgoing counter is kept. -/
def stationOf (w : Word) (outgoing : Nat) : Station :=
  { present := bitSet w 15, pollEnable := bitSet w 14
    first := callLetterOf (bitField w 5 5), second := callLetterOf (bitField w 0 5)
    answering := true, failures := 0, outgoing := outgoing, expected := none }

/-! ### Route entries (R78, section 11.4) -/

/-- A circuit together with a station (R80). -/
structure Target where
  circuit : Circuit
  station : StationIdx
  deriving DecidableEq, Repr

/-- What a route entry says (R78). -/
inductive Route where
  | unassigned
  | isLocal
  | circuit (primary : Target) (alternate : Option Target) (threshold : Nat)
  deriving DecidableEq, Repr

/-- The two words of a route entry read by their fields (R78): word 1 only if the alternate is present. -/
def routeOf (w0 w1 : Word) : Route :=
  match bitField w0 0 2 with
  | 1 => .isLocal
  | 2 =>
    .circuit ⟨Fin.ofNat 32 (bitField w0 2 5), Fin.ofNat 8 (bitField w0 7 3)⟩
      (if bitSet w0 15 then some ⟨Fin.ofNat 32 (bitField w1 0 5), Fin.ofNat 8 (bitField w1 5 3)⟩
       else none)
      (if bitSet w0 15 then bitField w1 8 8 else 0)
  | _ => .unassigned

/-! ### Blocks and codes in the post record -/

/-- The count word of a block: the low byte, above 60 read as 60 (R61, R105). -/
def blockCountOf (w : Word) : Nat := min (lowByte w) Config.blockCharacters

/-- The first and second character of a text word, the low five bits of each byte (R106). -/
def firstChar (w : Word) : RelayChar := w.extractLsb' 0 5
def secondChar (w : Word) : RelayChar := w.extractLsb' 8 5

/-- A text word with its upper three bits of each byte 0 (R185). -/
def textWord (first second : RelayChar) : Word := place 0 first.toNat ||| place 8 second.toNat

/-- A letter byte of a code word lies in 6 to 31 (R59). -/
def letterByteOk (b : Nat) : Bool := decide (6 ≤ b) && decide (b ≤ 31)

/-- Both letter bytes of a code word are letters (R59). -/
def codeWordOk (w : Word) : Bool := letterByteOk (highByte w) && letterByteOk (lowByte w)

/-- The code of a code word (section 11.2). -/
def codeOf (w : Word) : Code := ⟨BitVec.ofNat 5 (highByte w), BitVec.ofNat 5 (lowByte w)⟩

/-- A code as a code word (section 11.2). -/
def codeWord (code : Code) : Word := place 8 code.first.toNat ||| place 0 code.second.toNat

/-- The precedence of the post record's precedence byte (section 11.2). -/
def precedenceOf : Nat → Option Precedence
  | 0 => some .t
  | 1 => some .u
  | 2 => some .r
  | 3 => some .s
  | _ => none

/-! ### Tags (R45) -/

/-- The record a tag word names. -/
def tagRecord (tag : Word) : RecordIdx := Fin.ofNat 128 (bitField tag 0 7)

/-- The generation of a tag word. -/
def tagGeneration (tag : Word) : Nat := bitField tag 7 9

/-- The tag of record r at a generation: generation * 128 + index. -/
def tagOf (generation : Nat) (r : RecordIdx) : Word := BitVec.ofNat 16 (generation * 128 + r.val)

/-! ### Character timing tables (R2, R8, R82) -/

/-- The accumulator increment of a speed code (R2). -/
def speedIncrement : Fin 6 → Nat
  | 0 => 4964
  | 1 => 5461
  | 2 => 6213
  | 3 => 8105
  | 4 => 8192
  | 5 => 10923

/-- Send ticks in one character for a stop length code (R8). -/
def characterTicks : Fin 3 → Nat
  | 0 => 112
  | 1 => 120
  | 2 => 128

/-- The character time Tc in tenths of a millisecond (R82). -/
def characterTime : Fin 6 → Fin 3 → Nat
  | 0, 0 => 1540
  | 0, 1 => 1650
  | 0, 2 => 1760
  | 1, 0 => 1400
  | 1, 1 => 1500
  | 1, 2 => 1600
  | 2, 0 => 1231
  | 2, 1 => 1319
  | 2, 2 => 1406
  | 3, 0 => 943
  | 3, 1 => 1011
  | 3, 2 => 1078
  | 4, 0 => 933
  | 4, 1 => 1000
  | 4, 2 => 1067
  | 5, 0 => 700
  | 5, 1 => 750
  | 5, 2 => 800

end Sys2Proof.Machine
end

