-- ==== Sys2Proof/Machine/Flags.lean ====
section
/-! DEFINITION. The flags of a message record and the codes of every state, cause, reason and outcome, as
chapter 11 gives them. -/

namespace Sys2Proof.Machine

/-- Heading error reason codes (section 11.7). -/
def HeadingError.code : Option HeadingError → Nat
  | none => 0
  | some .badChannel => 1
  | some .badPrecedence => 2
  | some .badOrigin => 3
  | some .noDestination => 4

/-- The flag word of a directory record, also the detail of MESSAGE_IN (sections 11.6 and 11.7). -/
def Message.flagWord (m : Message) : Word :=
  placeBool 15 m.receiptMinute.isSome ||| place 8 (HeadingError.code m.flags.headingError) |||
  placeBool 7 m.flags.tooManyCodes ||| placeBool 6 m.flags.missingEnd |||
  placeBool 5 m.flags.lengthLimit ||| placeBool 4 m.flags.truncated |||
  placeBool 3 m.flags.duplicate ||| placeBool 2 m.flags.intercept |||
  placeBool 1 m.flags.isLocal ||| placeBool 0 m.flags.posted

/-- A message goes to intercept as a whole (R49). -/
def MessageFlags.wholeIntercept (f : MessageFlags) : Bool :=
  f.headingError.isSome || f.truncated || f.lengthLimit || f.missingEnd || f.duplicate

/-- A received message with a record that ended by EOM is clean (R38, R132). -/
def MessageFlags.clean (f : MessageFlags) : Bool := !f.truncated && !f.lengthLimit

def RecordState.code : RecordState → Nat
  | .free => 0
  | .filling => 1
  | .posting => 2
  | .routed => 3
  | .done => 4

def DeliveryState.code : DeliveryState → Nat
  | .queued => 1
  | .active => 2
  | .done => 3
  | .cancelled => 4

def Precedence.code : Precedence → Nat
  | .t => 0
  | .u => 1
  | .r => 2
  | .s => 3

def CircuitMode.code : CircuitMode → Nat
  | .closed => 0
  | .checking => 1
  | .ready => 2
  | .held => 3
  | .fault => 4
  | .retryWait => 5

def DialogueState.code : DialogueState → Nat
  | .quiet => 0
  | .calling => 1
  | .answerWait => 2
  | .delivering => 3
  | .receiptWait => 4
  | .pollSending => 5
  | .pollWait => 6
  | .inbound => 7
  | .replying => 8
  | .cancelling => 9

def StateCause.code : StateCause → Nat
  | .openCommand => 1
  | .checkPassed => 2
  | .lineFault => 3
  | .retryExpiry => 4
  | .clearFault => 5
  | .hold => 6
  | .holdDone => 7
  | .resume => 8
  | .close => 9

def FaultKind.code : FaultKind → Nat
  | .openReceive => 1
  | .sendLoopOpen => 2
  | .framing => 3
  | .noLine => 4

def FaultMode.code : FaultMode → Nat
  | .latched => 0
  | .retry => 1
  | .report => 2
  | .ignore => 3

def CommandRefusal.code : CommandRefusal → Nat
  | .unknown => 1
  | .busy => 2
  | .wrongState => 3
  | .badSettings => 4
  | .badStation => 5

def ReleaseRefusal.code : ReleaseRefusal → Nat
  | .stale => 1
  | .free => 2
  | .filling => 3
  | .noHold => 4

def PostOutcome.code : PostOutcome → Nat
  | .none => 0
  | .accepted => 1
  | .busy => 2
  | .tableFull => 3
  | .badPrecedence => 4
  | .badCodes => 5
  | .badChain => 6
  | .notKept => 7
  | .length => 8

/-- The fault set of circuit status word 25 (section 11.3). -/
def FaultSet.word (f : FaultSet) : Word :=
  placeBool 0 f.openReceive ||| placeBool 1 f.sendLoopOpen ||| placeBool 2 f.framing |||
  placeBool 3 f.noLine

/-- A kind stands in the fault set (R139). -/
def FaultSet.has (f : FaultSet) : FaultKind → Bool
  | .openReceive => f.openReceive
  | .sendLoopOpen => f.sendLoopOpen
  | .framing => f.framing
  | .noLine => f.noLine

/-- The fault set with a kind added (R152, R153). -/
def FaultSet.add (f : FaultSet) : FaultKind → FaultSet
  | .openReceive => { f with openReceive := true }
  | .sendLoopOpen => { f with sendLoopOpen := true }
  | .framing => { f with framing := true }
  | .noLine => { f with noLine := true }

end Sys2Proof.Machine
end

