-- ==== Sys2Proof/Machine/Ops.lean ====
section
/-! DEFINITION. The shared operations over the state: the store and the shadows, the one accessor through
which a circuit, a record or an office value is changed (it keeps the mirror writer's dirty sets, R179), and
the handing over of a report (R174). The part has no exception entry: raising a report is what tells the
switch processor. -/

namespace Sys2Proof.Machine

/-! ### Sorted maps -/

/-- What a sparse map holds at a key. -/
def Sparse.get {α : Type} (d : α) : Sparse α → Nat → α
  | [], _ => d
  | (k, v) :: rest, a => if k = a then v else Sparse.get d rest a

/-- The map with one key changed, in its canonical form: keys strictly rising, no entry equal to the
default. -/
def Sparse.put {α : Type} [DecidableEq α] (d : α) : Sparse α → Nat → α → Sparse α
  | [], a, v => if v = d then [] else [(a, v)]
  | (k, w) :: rest, a, v =>
    if a < k then (if v = d then (k, w) :: rest else (a, v) :: (k, w) :: rest)
    else if a = k then (if v = d then rest else (a, v) :: rest)
    else (k, w) :: Sparse.put d rest a v

/-- The canonical form: keys strictly rising, no entry equal to the default. -/
def Sparse.wf {α : Type} [DecidableEq α] (d : α) : Sparse α → Bool
  | [] => true
  | [(_, v)] => decide (v ≠ d)
  | (k, v) :: (k', v') :: rest => decide (k < k') && decide (v ≠ d) && Sparse.wf d ((k', v') :: rest)

/-! ### The store (R157) -/

/-- The store word at an address. -/
def State.readStore (s : State) (a : Address) : Word := Sparse.get Config.unwrittenWord s.store a.toNat

/-- A store word written. -/
def State.writeStore (s : State) (a : Address) (v : Word) : State :=
  { s with store := Sparse.put Config.unwrittenWord s.store a.toNat v }

/-- The office message store is in its canonical form, with addresses of 20 bits. -/
def Memory.wf (m : Sparse Word) : Bool :=
  Sparse.wf Config.unwrittenWord m && m.all fun e => decide (e.1 < 1048576)

/-- The address of a relay area offset: the base plus the offset (R158). -/
def State.relayAddress (s : State) (offset : Nat) : Address :=
  BitVec.ofNat 20 (s.strap.val * Config.relayWords + offset)

/-- The part's own read of a relay area word (R158). -/
def State.readRelay (s : State) (offset : Nat) : Word := s.readStore (s.relayAddress offset)

/-- The part's own write of a relay area word (R158). -/
def State.writeRelay (s : State) (offset : Nat) (v : Word) : State :=
  s.writeStore (s.relayAddress offset) v

/-- The part's own writes of consecutive relay area words. -/
def State.writeRelayWords (s : State) (offset : Nat) : List Word → State
  | [] => s
  | w :: ws => (s.writeRelay offset w).writeRelayWords (offset + 1) ws

/-- What a processor read returns: the store word, never a shadow (R157, R171). The opcode table has no
row for a read: it changes nothing. -/
def State.processorRead (s : State) (a : Address) : Word := s.readStore a

/-! ### Shadows (R160, R161) -/

/-- A shadow word as every block reads it: 0 while its written mark is clear (R161). -/
def State.shadowAt (s : State) (offset : Nat) : Word :=
  (Sparse.get none s.shadow offset).getD 0

/-- A processor write takes the value into the shadow and sets its written mark (R160). -/
def State.setShadow (s : State) (offset : Nat) (v : Word) : State :=
  { s with shadow := Sparse.put none s.shadow offset (some v) }

/-- Word `w` of a circuit's settings, as shadowed. -/
def State.setting (s : State) (c : Circuit) (w : Nat) : Word := s.shadowAt (offCircuit c w)

/-- The maximum text length in force (R33, R62). -/
def State.maxLength (s : State) : Nat := maxLengthOf (s.shadowAt offMaxLength)

/-! ### Block owners (R65) -/

def State.owner (s : State) (b : Nat) : Owner := Sparse.get Owner.processor s.owners b

def State.setOwner (s : State) (b : Nat) (o : Owner) : State :=
  { s with owners := Sparse.put Owner.processor s.owners b o }

/-- Every entry MESSAGE r becomes another owner in one event (R63, R73). PROCESSOR entries are not listed. -/
def State.rehome (s : State) (r : RecordIdx) (o : Owner) : State :=
  let moved := s.owners.map fun e => if e.2 = .message r then (e.1, o) else e
  { s with owners := moved.filter fun e => decide (e.2 ≠ .processor) }

/-! ### Circuits -/

def State.circuit (s : State) (c : Circuit) : CircuitState := s.circuits[c]

/-- The fields a circuit status record shows (R179). Word 28 shows a station that is present and
ANSWERING; words 26 and 27 its numbers. The queued-character counts stand here in full, so a change of one that stays
above 65535, where R98 shows 65535, is a change too: DESIGN CHOICE (log 27). -/
def CircuitState.shown (x : CircuitState) : CircuitShown :=
  { state := x.control.state, holdPending := x.control.holdPending
    diverting := x.control.diverting, faults := x.control.faults
    retryCount := x.control.retryCount, dialogue := x.dialogue.state
    lastStation := x.dialogue.lastStation, active := x.send.active, remaining := x.send.remaining
    queued := [x.queues.t.count, x.queues.u.count, x.queues.r.count, x.queues.s.count]
    outgoing := x.outgoing, expected := x.recogniser.expected
    stations := x.stations.toList.map fun t => (t.present && t.answering, t.outgoing, t.expected)
    framingErrors := x.line.framingErrors }

/-- A circuit changed; it joins the dirty set if a shown field changed (R179). -/
def State.setCircuit (s : State) (c : Circuit) (x : CircuitState) : State :=
  { s with
    circuits := s.circuits.set c x
    circuitDirty := s.circuitDirty.set c
      (s.circuitDirty[c] || decide (x.shown ≠ (s.circuit c).shown)) }

def State.updCircuit (s : State) (c : Circuit) (f : CircuitState → CircuitState) : State :=
  s.setCircuit c (f (s.circuit c))

def State.updLine (s : State) (c : Circuit) (f : LineUnit → LineUnit) : State :=
  s.updCircuit c fun x => { x with line := f x.line }

def State.updRecogniser (s : State) (c : Circuit) (f : Recogniser → Recogniser) : State :=
  s.updCircuit c fun x => { x with recogniser := f x.recogniser }

def State.updFifo (s : State) (c : Circuit) (f : List FifoItem → List FifoItem) : State :=
  s.updCircuit c fun x => { x with textFifo := f x.textFifo }

def State.updSend (s : State) (c : Circuit) (f : SendController → SendController) : State :=
  s.updCircuit c fun x => { x with send := f x.send }

def State.updDialogue (s : State) (c : Circuit) (f : Dialogue → Dialogue) : State :=
  s.updCircuit c fun x => { x with dialogue := f x.dialogue }

def State.updControl (s : State) (c : Circuit) (f : Controller → Controller) : State :=
  s.updCircuit c fun x => { x with control := f x.control }

def State.updStation (s : State) (c : Circuit) (t : StationIdx) (f : Station → Station) : State :=
  s.updCircuit c fun x => { x with stations := x.stations.set t (f x.stations[t]) }

def State.station (s : State) (c : Circuit) (t : StationIdx) : Station := (s.circuit c).stations[t]

/-- The effective kind of a circuit is party (R80, chapter 7). -/
def State.isParty (s : State) (c : Circuit) : Bool := (s.circuit c).control.effective.kind = .party

/-- The circuit is READY or HELD (R7, R11). -/
def State.inService (s : State) (c : Circuit) : Bool :=
  (s.circuit c).control.state = .ready || (s.circuit c).control.state = .held

/-- The station a report names: one on a party circuit, none on a point circuit (R178). -/
def State.partyStation (s : State) (c : Circuit) (t : Option StationIdx) : Option StationIdx :=
  if s.isParty c then t else none

/-- Every circuit, in ascending order. -/
def allCircuits : List Circuit := List.finRange 32

/-- Every record, in ascending order. -/
def allRecords : List RecordIdx := List.finRange 128

/-- Every slot, or every destination position, or every station, in ascending order. -/
def allSlots : List SlotIdx := List.finRange 8

/-! ### Message records -/

def State.message (s : State) (r : RecordIdx) : Message := s.messages[r]

/-- The fields a directory record shows: all but the overdue-reported flag and the saved numbers (R44). -/
def Message.shown (m : Message) : Message :=
  { m with
    overdueReported := false
    slots := Vector.ofFn fun k => (m.slots[k]).map fun d => { d with saved := none } }

/-- A record changed; it joins the dirty set if a shown field changed, and the office mark is set if the
free record count changed (R44, R46, R179). -/
def State.setMessage (s : State) (r : RecordIdx) (m : Message) : State :=
  { s with
    messages := s.messages.set r m
    messageDirty := s.messageDirty.set r
      (s.messageDirty[r] || decide (m.shown ≠ (s.message r).shown))
    officeDirty := s.officeDirty ||
      (decide (m.state = .free) != decide ((s.message r).state = .free)) }

def State.updMessage (s : State) (r : RecordIdx) (f : Message → Message) : State :=
  s.setMessage r (f (s.message r))

def State.updFlags (s : State) (r : RecordIdx) (f : MessageFlags → MessageFlags) : State :=
  s.updMessage r fun m => { m with flags := f m.flags }

def State.updSlot (s : State) (r : RecordIdx) (k : SlotIdx)
    (f : Option Delivery → Option Delivery) : State :=
  s.updMessage r fun m => { m with slots := m.slots.set k (f m.slots[k]) }

def State.delivery (s : State) (r : RecordIdx) (k : SlotIdx) : Option Delivery := (s.message r).slots[k]

def State.fill (s : State) (r : RecordIdx) : Fill := s.fills[r]

def State.setFill (s : State) (r : RecordIdx) (f : Fill) : State := { s with fills := s.fills.set r f }

/-- The tag of a record as it stands (R45). -/
def State.tag (s : State) (r : RecordIdx) : Word := tagOf (s.message r).generation r

/-- The free record count (R46). -/
def State.freeCount (s : State) : Nat :=
  s.messages.toList.countP fun m => decide (m.state = .free)

/-- The lowest-numbered FREE record (R46). -/
def State.lowestFree (s : State) : Option RecordIdx :=
  allRecords.find? fun r => decide ((s.message r).state = .free)

/-- The precedence of a record. Every record that is routed holds one (R49, R60). -/
def Message.rank (m : Message) : Precedence := m.precedence.getD .s

/-- The number of codes in a code set. -/
def codeCount (codes : PositionSet) : Nat := allSlots.countP fun i => codes.getLsbD i.val

/-- The sent length of a delivery: L + 3n + 29 (R87, R98). -/
def sentLength (m : Message) (codes : PositionSet) : Nat := m.textLength + 3 * codeCount codes + 29

/-! ### Reports (R174) -/

/-- A report joins the pending list, or is lost and counted (R174). A change of the lost count sets the
office dirty mark. -/
def State.raise (s : State) (place : Place) (tag : Word) (kind : ReportKind) : State :=
  if s.reports.pending.length < Config.pendingReports then
    { s with reports := { s.reports with
        pending := s.reports.pending ++ [⟨place, tag, kind, s.minute⟩] } }
  else
    { s with
      reports := { s.reports with lost := min (s.reports.lost + 1) 65535 }
      officeDirty := s.officeDirty || decide (s.reports.lost < 65535) }

/-- The unconsumed entries of the ring (R173). -/
def ReportWriter.unconsumed (w : ReportWriter) : Nat :=
  (w.produce + Config.ringEntries - w.consume) % Config.ringEntries

/-! ### Pool values -/

/-- The pool unit changed; a change of the pool count or the give state sets the office mark (R179). -/
def State.setPool (s : State) (p : Pool) : State :=
  { s with
    pool := p
    officeDirty := s.officeDirty || decide (p.count ≠ s.pool.count) ||
      (p.give.isSome != s.pool.give.isSome) }

/-- The post state and the last post outcome changed (R59, R60, R62, R63, R179). -/
def State.setPost (s : State) (walk : Option Walk) (outcome : PostOutcome) : State :=
  { s with
    walk := walk
    postOutcome := outcome
    officeDirty := s.officeDirty || (walk.isSome != s.walk.isSome) ||
      decide (outcome ≠ s.postOutcome) }

end Sys2Proof.Machine
end

