-- ==== Sys2Proof/Machine/LineUnit.lean ====
section
/-! DEFINITION. The line unit's own operations (chapter 1): the clock, the receiver's and transmitter's ticks,
the comparison of speeds, the line watch, and the change of a circuit's state, which the line unit hears. -/

namespace Sys2Proof.Machine

/-! ### The reference clock (R1, R2) -/

/-- One reference clock cycle of an accumulator: its new value, and whether it carried (R2). -/
def accumulate (a : BitVec 24) (speed : Fin 6) : BitVec 24 × Bool :=
  (a + BitVec.ofNat 24 (speedIncrement speed), decide (2 ^ 24 ≤ a.toNat + speedIncrement speed))

/-- One reference clock cycle of a line unit; a carry is a sample tick that falls due (R2). -/
def LineUnit.clock (l : LineUnit) : LineUnit :=
  let rx := accumulate l.rxAccumulator l.rxSpeed
  let tx := accumulate l.txAccumulator l.txSpeed
  { l with
    rxAccumulator := rx.1, txAccumulator := tx.1
    rxTicksDue := if rx.2 then l.rxTicksDue + 1 else l.rxTicksDue
    txTicksDue := if tx.2 then l.txTicksDue + 1 else l.txTicksDue }

/-- One reference clock cycle with no command: the divider and every accumulator advance (R1, R2; log 1).
Nothing shown changes. -/
def clockCycle (s : State) : State :=
  { s with
    divider := if s.divider + 1 < Config.cyclesPerOfficeTick then s.divider + 1 else 0
    officeTicksDue := if s.divider + 1 < Config.cyclesPerOfficeTick then s.officeTicksDue
      else s.officeTicksDue + 1
    circuits := Vector.ofFn fun c : Circuit =>
      { s.circuits[c] with line := s.circuits[c].line.clock } }

/-! ### The transmitter's output (R8) -/

/-- The level on the send output: true is mark. Space for the start element, each data bit in turn, mark
for the stop element and while IDLE. -/
def Transmitter.mark : Transmitter → Bool
  | .idle => true
  | .sending char tick _ _ =>
    if tick < 16 then false
    else if tick < 96 then char.getLsbD (tick / 16 - 1)
    else true

/-! ### Speed and stop length changes (R11, R12) -/

/-- A code of settings word 1 is invalid (R12). -/
def speedSettingInvalid (w : Word) : Bool := (speedOf w).isNone || (stopOf w).isNone

/-- The comparison of R11 in the directions named, while READY or HELD: the first that finds an invalid code
raises SETTING_HELD and sets the mark (R12); a valid code is copied, each judged by itself. -/
def compareSpeed (rx tx : Bool) (c : Circuit) (s : State) : State :=
  if (rx || tx) && s.inService c then
    let w := s.setting c 1
    let s :=
      if speedSettingInvalid w && !(s.circuit c).line.settingHeld then
        (s.raise (.circuit c none) 0 .settingHeld).updLine c fun l => { l with settingHeld := true }
      else s
    s.updLine c fun l =>
      { l with
        rxSpeed := if rx then (speedOf w).getD l.rxSpeed else l.rxSpeed
        txSpeed := if tx then (speedOf w).getD l.txSpeed else l.txSpeed
        txStop := if tx then (stopOf w).getD l.txStop else l.txStop }
  else s

/-- The comparison at a write of word 1 and at an entry to READY or HELD: by the receiver if it is HUNTING
and by the transmitter if it is IDLE (R11). -/
def compareAtRest (c : Circuit) (s : State) : State :=
  let l := (s.circuit c).line
  compareSpeed (decide (l.receiver = .hunting)) (decide (l.transmitter = .idle)) c s

/-! ### The circuit state, as the line unit hears it (R140) -/

/-- A change of the circuit state: CIRCUIT_STATE is raised with its cause, and an entry to READY or HELD
makes the line unit compare speeds (R11, R140). -/
def setMode (c : Circuit) (mode : CircuitMode) (cause : StateCause) (s : State) : State :=
  let s := s.updControl c fun k => { k with state := mode }
  compareAtRest c (s.raise (.circuit c none) 0 (.circuitState mode cause))

/-! ### The line watch (R13 to R17) -/

/-- A re-arm request: all three detectors ARMED and their counts 0 (R17). -/
def LineUnit.rearm (l : LineUnit) : LineUnit :=
  { l with
    openDetector := .armed, openCount := 0, openMarkRun := 0
    loopDetector := .armed, loopCount := 0, framingDetector := .armed, framingCount := 0 }

/-- The open-receive trip is due (R14). -/
def LineUnit.openTripDue (l : LineUnit) (openLineTime : Nat) : Bool :=
  l.openDetector = .armed && decide (openLineTime ≤ l.openCount)

/-- The send-loop trip is due (R15). -/
def LineUnit.loopTripDue (l : LineUnit) : Bool := l.loopDetector = .armed && decide (10 ≤ l.loopCount)

/-- The framing trip is due (R16). -/
def LineUnit.framingTripDue (l : LineUnit) : Bool :=
  l.framingDetector = .armed && decide (4 ≤ l.framingCount)

/-- The re-arming of a tripped open-receive detector is due (R14). -/
def LineUnit.openRearmDue (l : LineUnit) : Bool :=
  l.openDetector = .tripped && decide (16 ≤ l.openMarkRun)

/-- The open-receive detector at an office tick (R14): space counts up to the open-line time, mark sets the
count to 0. A trip that is due keeps its count until it is taken (log 2). -/
def LineUnit.watchOpen (l : LineUnit) (openLineTime : Nat) (mark : Bool) : LineUnit :=
  if l.openTripDue openLineTime then l
  else { l with openCount := if mark then 0 else min (l.openCount + 1) openLineTime }

/-- The send-loop detector at an office tick (R15): marking without current counts up to 10, marking with
current sets the count to 0, a space output leaves it; current re-arms a tripped detector. -/
def LineUnit.watchLoop (l : LineUnit) (current : Bool) : LineUnit :=
  if l.loopTripDue then l
  else if l.loopDetector = .tripped && current then { l with loopDetector := .armed, loopCount := 0 }
  else if l.transmitter.mark then
    { l with loopCount := if current then 0 else min (l.loopCount + 1) 10 }
  else l

/-- The line watch at an office tick (R13), with the levels on the two input pins. -/
def LineUnit.officeTick (l : LineUnit) (openLineTime : Nat) (mark current : Bool) : LineUnit :=
  { (l.watchOpen openLineTime mark).watchLoop current with receiveIn := mark, loopIn := current }

/-- The run of receive ticks at mark that re-arms a tripped open-receive detector (R14). Sixteen, once
reached, stand until the re-arming is taken (log 2). -/
def LineUnit.markRun (l : LineUnit) (mark : Bool) : LineUnit :=
  if l.openRearmDue then l
  else
    { l with
      openMarkRun := if mark && l.openDetector = .tripped then l.openMarkRun + 1 else 0 }

/-- A completed character goes to the framing detector (R16): mutilated counts up to 4, good sets the count
to 0 and re-arms. A trip that is due keeps its count until it is taken (log 2). -/
def LineUnit.watchFraming (l : LineUnit) (mutilated : Bool) : LineUnit :=
  if l.framingTripDue then l
  else if mutilated then { l with framingCount := min (l.framingCount + 1) 4 }
  else { l with framingCount := 0, framingDetector := .armed }

/-! ### The receiver's ticks (R4, R5) -/

/-- The tick is the stop sample of a character: the 96th after the confirmation (R5). -/
def Receiver.stopSampleDue : Receiver → Bool
  | .assembling tick _ => decide (95 ≤ tick)
  | _ => false

/-- A receive sample tick short of the stop sample (R4, R5); the flag says that a false start has
returned the receiver to HUNTING. -/
def Receiver.tick (r : Receiver) (mark : Bool) : Receiver × Bool :=
  match r with
  | .stopped => (.stopped, false)
  | .hunting => (if mark then .hunting else .confirming 0, false)
  | .confirming k =>
    if k + 1 < 8 then (.confirming (k + 1), false)
    else if mark then (.hunting, true) else (.assembling 0 0, false)
  | .assembling k bits =>
    let element := (k + 1) / 16 - 1
    if (k + 1) % 16 = 0 && decide (k + 1 ≤ 80) && mark then
      (.assembling (k + 1) (bits ||| (1 <<< element)), false)
    else (.assembling (k + 1) bits, false)

/-- What every receive tick does besides the receiver: the tick is taken, the pin is read, and the mark run
of the open-receive detector goes on (R2, R13, R14). -/
def LineUnit.takeReceiveTick (l : LineUnit) (mark : Bool) : LineUnit :=
  { l.markRun mark with rxTicksDue := l.rxTicksDue - 1, receiveIn := mark }

/-- RECEIVE_SAMPLE_TICK (R4, R5): not due where the tick would be the stop sample. A false start makes the
receiver compare speeds as it enters HUNTING (R11). -/
def receiveSampleTick (c : Circuit) (mark : Bool) (s : State) : State :=
  let l := (s.circuit c).line
  if l.receiver.stopSampleDue then s
  else
    let next := l.receiver.tick mark
    let s := s.updLine c fun l => { l.takeReceiveTick mark with receiver := next.1 }
    if next.2 then compareSpeed true false c s else s

/-- OPEN_RECEIVE_REARM (R14). -/
def openReceiveRearm (c : Circuit) (s : State) : State :=
  if (s.circuit c).line.openRearmDue then
    s.updLine c fun l => { l with openDetector := .armed, openCount := 0, openMarkRun := 0 }
  else s

end Sys2Proof.Machine
end

