-- ==== Sys2Proof/Machine/Send.lean ====
section
/-! DEFINITION. The send queues and the send controller (sections 6.1 to 6.10), up to what ends a
transmission: the queues and their counts, starting a transmission, returning a delivery to its queue, and the
characters offered to the transmitter. -/

namespace Sys2Proof.Machine

/-! ### Queues (R96, R97) -/

def Queues.get (q : Queues) : Precedence → Queue
  | .t => q.t
  | .u => q.u
  | .r => q.r
  | .s => q.s

def Queues.put (q : Queues) (p : Precedence) (x : Queue) : Queues :=
  match p with
  | .t => { q with t := x }
  | .u => { q with u := x }
  | .r => { q with r := x }
  | .s => { q with s := x }

/-- The precedences, highest first. -/
def allPrecedences : List Precedence := [.t, .u, .r, .s]

def Queues.isEmpty (q : Queues) : Bool := allPrecedences.all fun p => (q.get p).entries.isEmpty

def State.queue (s : State) (c : Circuit) (p : Precedence) : Queue := (s.circuit c).queues.get p

def State.updQueue (s : State) (c : Circuit) (p : Precedence) (f : Queue → Queue) : State :=
  s.updCircuit c fun x => { x with queues := x.queues.put p (f (x.queues.get p)) }

/-- The entry of a delivery. -/
def QueueEntry.names (e : QueueEntry) (r : RecordIdx) (k : SlotIdx) : Bool :=
  decide (e.record = r) && decide (e.slot = k)

/-- A delivery joins at the tail, and the count rises by its sent length (R97). -/
def Queue.joinTail (q : Queue) (e : QueueEntry) : Queue :=
  { entries := q.entries ++ [e], count := q.count + e.sentLength }

/-- A delivery returns to the head, and the count rises by its sent length (R97). -/
def Queue.joinHead (q : Queue) (e : QueueEntry) : Queue :=
  { entries := e :: q.entries, count := q.count + e.sentLength }

/-- A delivery leaves from its place, and the count falls by its sent length (R97). -/
def Queue.leave (q : Queue) (r : RecordIdx) (k : SlotIdx) : Queue :=
  match q.entries.find? fun e => e.names r k with
  | some e =>
    { entries := q.entries.filter fun e => !e.names r k, count := q.count - e.sentLength }
  | none => q

/-- A merged code raises the sent length of a queued delivery and the count (R92, R97). -/
def Queue.lengthen (q : Queue) (r : RecordIdx) (k : SlotIdx) (n : Nat) : Queue :=
  { entries := q.entries.map fun e =>
      if e.names r k then { e with sentLength := e.sentLength + n } else e
    count := q.count + n }

/-- The head of a circuit's highest-precedence queue that is not empty (R90, R100). -/
def State.highestHead (s : State) (c : Circuit) : Option QueueEntry :=
  allPrecedences.findSome? fun p => (s.queue c p).entries.head?

/-- The station of a queued entry's delivery. -/
def State.entryStation (s : State) (e : QueueEntry) : Option StationIdx :=
  (s.delivery e.record e.slot).map fun d => d.station

/-- An entry is for a station that is present and ANSWERING (R110, R123). -/
def State.entryAnswering (s : State) (c : Circuit) (e : QueueEntry) : Bool :=
  match s.entryStation e with
  | some t => (s.station c t).present && (s.station c t).answering
  | none => false

/-! ### Starting a transmission (R100, R102, R105, R126) -/

/-- The fetch begins at the record's head block; a message with no text has none (R105). -/
def beginFetch (m : Message) : Option Fetch :=
  match m.head with
  | some b => if m.textLength = 0 then none else some { block := b, toFetch := m.textLength, run := none }
  | none => none

/-- The channel number of a transmission, assigned when its heading starts (R102, R126): the circuit's
counter on a point circuit; on a party circuit the delivery's saved number if it holds one, else the
station's counter. A counter used advances. -/
def assignChannel (c : Circuit) (d : Delivery) (s : State) : Nat × State :=
  if s.isParty c then
    match d.saved with
    | some n => (n, s)
    | none =>
      ((s.station c d.station).outgoing,
        s.updStation c d.station fun t => { t with outgoing := nextChannel t.outgoing })
  else
    ((s.circuit c).outgoing,
      s.updCircuit c fun x => { x with outgoing := nextChannel x.outgoing })

/-- A queued delivery becomes ACTIVE (R100, R126): it leaves its queue, its sent length moves to the
remaining count, its channel number is assigned and saved, and its fetch begins. -/
def startTransmission (c : Circuit) (e : QueueEntry) (s : State) : State :=
  match s.delivery e.record e.slot with
  | none => s
  | some d =>
    let m := s.message e.record
    let s := s.updQueue c m.rank fun q => q.leave e.record e.slot
    let assigned := assignChannel c d s
    let s := assigned.2.updSlot e.record e.slot fun _ =>
      some { d with state := .active, saved := some assigned.1 }
    s.updSend c fun _ =>
      { active := some (e.record, e.slot), phase := .heading, position := 0
        remaining := e.sentLength, channel := some assigned.1, cause := none
        pendingCancel := false, fifo := [], fetch := beginFetch m }

/-! ### Ending a delivery's part in a transmission -/

/-- The send controller returns to phase NONE (R99). -/
def endSend (c : Circuit) (s : State) : State := s.updSend c fun _ => .none

/-- Two deliveries of one message are for the same target (R80): the same circuit, and the same station if
its effective kind is party. -/
def State.sameTarget (s : State) (a b : Delivery) : Bool :=
  decide (a.circuit = b.circuit) && (!s.isParty a.circuit || decide (a.station = b.station))

/-- The QUEUED delivery of a record for the target of delivery `d`, in a slot other than `k` (R97): the one in the
lowest slot, however it was made, and no more than one (DESIGN CHOICE, log 42). -/
def State.absorbable (s : State) (r : RecordIdx) (k : SlotIdx) (d : Delivery) : Option SlotIdx :=
  allSlots.find? fun j => decide (j ≠ k) && (match s.delivery r j with
    | some d' => d'.state = .queued && s.sameTarget d d'
    | none => false)

/-- The absorbing of a QUEUED delivery by a returning one (R97): its codes join, it leaves its queue, and its
slot returns to EMPTY. Answers the delivery with the codes it absorbed, and whether it absorbed any. -/
def absorb (r : RecordIdx) (k : SlotIdx) (d : Delivery) (s : State) : Delivery × Bool × State :=
  match s.absorbable r k d with
  | none => (d, false, s)
  | some j =>
    match s.delivery r j with
    | none => (d, false, s)
    | some d' =>
      let s := s.updQueue d'.circuit (s.message r).rank fun q => q.leave r j
      ({ d with codes := d.codes ||| d'.codes }, true, s.updSlot r j fun _ => none)

/-- The ACTIVE delivery of a circuit returns to QUEUED at the head of its queue (R97, R112, R113, R128):
attempts rise, saturating at 15; the saved number is cleared, unless a failed receipt keeps it and
nothing is absorbed; its full sent length is added to the count. The send controller goes to phase NONE. -/
def returnDelivery (c : Circuit) (keepSaved : Bool) (s : State) : State :=
  match (s.circuit c).send.active with
  | none => s
  | some (r, k) =>
    match s.delivery r k with
    | none => endSend c s
    | some d =>
      let (d, absorbed, s) := absorb r k d s
      let d : Delivery :=
        { d with
          state := .queued
          attempts := min (d.attempts + 1) 15
          saved := if keepSaved && !absorbed then d.saved else none }
      let s := s.updSlot r k fun _ => some d
      let m := s.message r
      let s := s.updQueue d.circuit m.rank fun q =>
        q.joinHead { record := r, slot := k, sentLength := sentLength m d.codes }
      endSend c s

/-- The circuit controller is told that a transmission has ended; a pending hold makes the circuit HELD
(R147). -/
def transmissionEnded (c : Circuit) (s : State) : State :=
  if (s.circuit c).control.holdPending then
    setMode c .held .holdDone (s.updControl c fun k => { k with holdPending := false })
  else s

/-! ### The line sequences (R103, R104, R107, R111, section 11.10) -/

/-- The precedence letter (R103). -/
def precedenceLetter : Precedence → RelayChar
  | .t => chT
  | .u => chU
  | .r => chR
  | .s => chS

/-- The 19 characters of a heading (R103). -/
def headingLine (channel : Nat) (p : Precedence) (origin : Code) : List RelayChar :=
  [chCR, chLF, chLtrs, chH, chH, chH, chSpace, chFigs,
    digitChar (channel / 100 % 10), digitChar (channel / 10 % 10), digitChar (channel % 10),
    chLtrs, chSpace, precedenceLetter p, chSpace, origin.first, origin.second, chCR, chLF]

/-- The codes of a code set, in destination-list order (R104). -/
def Message.codesOf (m : Message) (codes : PositionSet) : List Code :=
  allSlots.filterMap fun i =>
    if codes.getLsbD i.val then
      match m.destinations[i.val]? with
      | some (Dest.code x) => some x
      | _ => none
    else none

/-- Codes with a single SPACE between consecutive ones (R104). -/
def spacedCodes : List Code → List RelayChar
  | [] => []
  | [a] => [a.first, a.second]
  | a :: rest => a.first :: a.second :: chSpace :: spacedCodes rest

/-- The destination line of a code set (R104). -/
def destinationLine (m : Message) (codes : PositionSet) : List RelayChar :=
  spacedCodes (m.codesOf codes) ++ [chCR, chLF]

def trailerLine : List RelayChar := [chCR, chLF, chLtrs, chE, chE, chE, chE, chCR, chLF]

def cancelLine : List RelayChar := [chCR, chLF, chLtrs, chQ, chQ, chQ, chQ, chCR, chLF]

/-- The select or poll sequence of a station (R124, R130). -/
def callSequence (letter : RelayChar) (t : Station) : List RelayChar :=
  [chLtrs, chLtrs, letter, t.first, t.second]

/-- The reply to an inbound message (R133). -/
def replySequence : Reply → List RelayChar
  | .accepted => [chR, chR]
  | .refused => [chQ, chQ]

/-! ### What is offered to the transmitter (R9, R103 to R111, R119) -/

/-- The characters of the phase that is being sent, but for the text, which stands in the send FIFO. -/
def State.phaseLine (s : State) (c : Circuit) : List RelayChar :=
  let x := (s.circuit c).send
  match x.active with
  | none => []
  | some (r, k) =>
    let m := s.message r
    match x.phase with
    | .heading => headingLine (x.channel.getD 0) m.rank (m.originCode.getD ⟨0, 0⟩)
    | .dest => match s.delivery r k with
      | some d => destinationLine m d.codes
      | none => []
    | .trailer => trailerLine
    | .cancel => cancelLine
    | _ => []

/-- The character the send controller offers (R103 to R107, R111). -/
def State.sendOffers (s : State) (c : Circuit) : Option RelayChar :=
  let x := (s.circuit c).send
  match x.phase with
  | .text => x.fifo.head?
  | _ => (s.phaseLine c)[x.position]?

/-- The character the dialogue controller offers in CALLING, POLL_SENDING and REPLYING (R119). -/
def State.dialogueSequence (s : State) (c : Circuit) : List RelayChar :=
  let d := (s.circuit c).dialogue
  match d.state, d.selected with
  | .calling, some t => callSequence chS (s.station c t)
  | .pollSending, some t => callSequence chP (s.station c t)
  | .replying, _ => match d.replyOwed with
    | some reply => replySequence reply
    | none => []
  | _, _ => []

/-- The character offered to the transmitter, with its source (R9). -/
def State.offered (s : State) (c : Circuit) : Option (RelayChar × CharSource) :=
  match s.isParty c, (s.circuit c).dialogue.state with
  | true, .calling | true, .pollSending | true, .replying =>
    ((s.dialogueSequence c)[(s.circuit c).dialogue.sequencePos]?).map fun ch => (ch, .dialogue)
  | _, _ => (s.sendOffers c).map fun ch => (ch, .sendController)

/-- The transmitter takes the character offered and begins its start element; a text character leaves
the send FIFO. With none offered it is IDLE (R8, R9, R106). -/
def takeOffered (c : Circuit) (s : State) : State :=
  match s.offered c with
  | none => s.updLine c fun l => { l with transmitter := .idle }
  | some (ch, source) =>
    let s := s.updLine c fun l =>
      { l with transmitter := .sending ch 0 (characterTicks l.txStop) (some source) }
    if source = .sendController && (s.circuit c).send.phase = .text then
      s.updSend c fun x => { x with fifo := x.fifo.tail }
    else s

/-! ### Preemption and cancel lines (R110, R111, R114) -/

/-- The phase is HEADING, DEST or TEXT. -/
def Phase.beforeTrailer : Phase → Bool
  | .heading | .dest | .text => true
  | _ => false

/-- An active R or S delivery that a train order would preempt: the five conditions of R84's list, which are those
that R110 shares with it. DESIGN CHOICE (log 46): R110 also asks that no cancel order is pending and says that its
conditions decide the substitution of R84 too; R84's own list does not name that one. The model follows R84's
list, so a delivery with a pending cancel order is preemptable here; `State.preempts` asks the rest of R110. -/
def State.preemptable (s : State) (c : Circuit) : Bool :=
  let x := s.circuit c
  match x.send.active with
  | none => false
  | some (r, _) =>
    x.control.effective.preemption &&
    ((s.message r).rank = .r || (s.message r).rank = .s) &&
    x.send.phase.beforeTrailer &&
    (!s.isParty c || x.dialogue.state = .delivering) &&
    !(x.control.state = .ready && x.control.holdPending)

/-- The send scheduler preempts at this boundary (R110). -/
def State.preempts (s : State) (c : Circuit) : Bool :=
  s.preemptable c && !(s.circuit c).send.pendingCancel &&
  (s.queue c .t).entries.any fun e => !s.isParty c || s.entryAnswering c e

/-- A cancel line begins (R111, R114): the fetch stops, the send FIFO is emptied, the phase is CANCEL with
remaining count 9, and a party dialogue enters CANCELLING (R134, R135). -/
def beginCancelLine (c : Circuit) (cause : CancelCause) (s : State) : State :=
  let s := s.updSend c fun x =>
    { x with phase := .cancel, cause := some cause, position := 0, remaining := 9, fifo := [], fetch := none }
  if s.isParty c then s.updDialogue c fun d => { d with state := .cancelling } else s

end Sys2Proof.Machine
end

