-- ==== Sys2Proof/Machine/Scheduler.lean ====
section
/-! DEFINITION. The send scheduler's choice on a point circuit (R100) and the party scheduler's choice of the
next dialogue (R121 to R123). -/

namespace Sys2Proof.Machine

/-- The circuit may start something new: READY, no hold pending, no diverting mark (R100, R123). -/
def State.mayStart (s : State) (c : Circuit) : Bool :=
  let k := (s.circuit c).control
  k.state = .ready && !k.holdPending && !k.diverting

/-- A judgement of the send scheduler on a point circuit (R100). -/
def judgePoint (c : Circuit) (s : State) : State :=
  if s.mayStart c && (s.circuit c).send.phase = .idle then
    match s.highestHead c with
    | some e => startTransmission c e s
    | none => s
  else s

/-- The first delivery of a queue whose station is present and ANSWERING, in queue order (R123). -/
def State.firstAnswering (s : State) (c : Circuit) (p : Precedence) : Option QueueEntry :=
  (s.queue c p).entries.find? fun e => s.entryAnswering c e

/-- The next station to poll: upward from the rotation, wrapping, present and poll enabled (R121). -/
def State.nextPoll (s : State) (c : Circuit) : Option StationIdx :=
  (allSlots.map fun i => (s.circuit c).dialogue.rotation + i).find? fun t =>
    (s.station c t).present && (s.station c t).pollEnable

/-- A select: the station is selected and the dialogue enters CALLING (R123, R124). -/
def selectStation (c : Circuit) (t : StationIdx) (s : State) : State :=
  s.updDialogue c fun d =>
    { d with state := .calling, selected := some t, sequencePos := 0, lastStation := t }

/-- A poll: the rotation advances, the poll timer is reloaded, and the dialogue enters POLL_SENDING (R121,
R123, R130). -/
def pollStation (c : Circuit) (t : StationIdx) (s : State) : State :=
  let interval := (s.circuit c).control.effective.pollInterval
  s.updDialogue c fun d =>
    { d with
      state := .pollSending, selected := some t, sequencePos := 0, lastStation := t
      rotation := t + 1, pollTimer := some (10 * interval), pollExpired := false }

/-- The station of the first ANSWERING delivery in the U, R, then S queue (R123, step 3). -/
def State.lowerChoice (s : State) (c : Circuit) : Option QueueEntry :=
  [Precedence.u, .r, .s].findSome? fun p => s.firstAnswering c p

/-- Select the station of a queue entry. -/
def selectFor (c : Circuit) (e : QueueEntry) (s : State) : State :=
  match s.entryStation e with
  | some t => selectStation c t s
  | none => s

/-- A judgement of the party scheduler: the first of the five steps that applies (R123). While polling is
suspended the poll steps are passed over (R122). -/
def judgeParty (c : Circuit) (s : State) : State :=
  let d := (s.circuit c).dialogue
  if s.mayStart c && d.state = .quiet then
    let poll := if s.pool.suspension then none else s.nextPoll c
    match s.firstAnswering c .t, d.pollExpired, poll, s.lowerChoice c with
    | some e, _, _, _ => selectFor c e s
    | none, true, some t, _ => pollStation c t s
    | none, _, _, some e => selectFor c e s
    | none, _, some t, none => pollStation c t s
    | none, _, none, none => s
  else s

/-- A judgement of the circuit's scheduler (R100, R123). -/
def judge (c : Circuit) (s : State) : State :=
  if s.isParty c then judgeParty c s else judgePoint c s

end Sys2Proof.Machine
end

