-- ==== Sys2Proof/Machine/Pool.lean ====
section
/-! DEFINITION. The block pool unit and the post walk's hold on blocks (chapter 4): the suspension
condition, takes, give builds, returns, and which run is next. -/

namespace Sys2Proof.Machine

/-! ### The pool reserve (R76, R122) -/

/-- The suspension condition as the values standing imply it (R76). -/
def State.suspendedNow (s : State) : Bool :=
  decide (s.pool.count < poolReserveOf (s.shadowAt offReserve)) || decide (s.freeCount < 2)

/-- The pool unit judges the suspension condition anew; its end wakes every QUIET dialogue on a READY circuit
(R76, R122). -/
def judgeSuspension (s : State) : State :=
  let now := s.suspendedNow
  let ended := s.pool.suspension && !now
  let s := { s with pool := { s.pool with suspension := now } }
  if ended then
    allCircuits.foldl (fun s c => if s.isParty c then judgeParty c s else s) s
  else s

/-! ### Takes (R40, R41, R72) -/

/-- The block writer makes the take for the head of its waiting list whenever the pool holds a block and
no take is outstanding (R41). -/
def takeRequest (s : State) : State :=
  match s.pool.take, s.writer.waiting with
  | none, r :: _ =>
    if 0 < s.pool.count then { s with pool := { s.pool with take := some r } } else s
  | _, _ => s

/-- What follows each change of the pool: a waiting take begins, and the suspension condition is judged. -/
def poolChanged (s : State) : State := judgeSuspension (takeRequest s)

/-- The pending return write into a block's link word (R72, R73). -/
def Pool.pendingReturn (p : Pool) (b : Nat) : Option Nat :=
  (p.returns.find? fun e => decide (e.1 = b)).map fun e => e.2

/-- The removal of the pool head at a take (R72): the successor is the pending return value if there is one,
and that write is dropped; otherwise it is the link read. -/
def Pool.removeHead (p : Pool) (b : Nat) (link : Word) : Pool :=
  let successor := (p.pendingReturn b).getD link.toNat
  { p with
    head := if p.count - 1 = 0 then none else some successor
    tail := if p.count - 1 = 0 then none else p.tail
    count := p.count - 1
    take := none
    returns := p.returns.filter fun e => decide (e.1 ≠ b) }

/-! ### Returning a chain (R73) -/

/-- A freed record's chain is appended to the pool tail, with a pending return write unless the pool is
empty (R73). -/
def Pool.append (p : Pool) (head : Nat) (tail : Option Nat) (blocks : Nat) : Pool :=
  if p.count = 0 then { p with head := some head, tail := tail, count := blocks }
  else
    { p with
      tail := tail
      count := p.count + blocks
      returns := match p.tail with
        | some t => p.returns ++ [(t, head)]
        | none => p.returns }

/-- The chain of a record goes back to the pool; a record with no head block returns nothing (R52, R73). -/
def returnChain (r : RecordIdx) (s : State) : State :=
  let m := s.message r
  match m.head with
  | none => s
  | some h => (s.rehome r .pool).setPool (s.pool.append h m.tail m.blockCount)

/-! ### Which work is next (R68) -/

/-- The pool unit's kinds of work in the order of R68. `giveSkip` is a give step that makes no run. -/
inductive PoolWork where
  | take | giveRun | giveSkip | walkRead | walkEnd | returnWrite
  deriving DecidableEq, Repr

/-- The next work of the pool unit: take, then give build, then post walk, then return (R68). -/
def State.poolWork (s : State) : Option PoolWork :=
  match s.pool.take, s.pool.give, s.walk, s.pool.returns with
  | some _, _, _, _ => some .take
  | none, some g, _, _ => if s.owner g.position = .processor then some .giveRun else some .giveSkip
  | none, none, some w, _ => if w.ending then some .walkEnd else some .walkRead
  | none, none, none, _ :: _ => some .returnWrite
  | none, none, none, [] => none

/-- The run that the pool unit offers the arbiter: a skipped give step makes none (R68, R70, R169). -/
def State.poolRun (s : State) : Option Run :=
  match s.poolWork with
  | some .take => some .take
  | some .giveRun => some .give
  | some .walkRead => some .walkRead
  | some .walkEnd => some .walkEnd
  | some .returnWrite => s.pool.returns.head?.map fun e => .returnWrite e.1 e.2
  | some .giveSkip | none => none

/-! ### Give builds (R69 to R71) -/

/-- The build ends when its position passes the range: IDLE, and GIVE_DONE with the two counts (R71). -/
def giveEnd (s : State) : State :=
  match s.pool.give with
  | none => s
  | some g =>
    if g.position < g.stop then s
    else
      (s.setPool { s.pool with give := none }).raise .office (BitVec.ofNat 16 g.given)
        (.giveDone g.skipped)

/-- A give order (R69): refused BUSY while BUILDING, else the clipped range is built from its first
block. An empty range ends at once. -/
def giveOrder (count : Word) (s : State) : State :=
  match s.pool.give with
  | some _ => s.raise .office 0 (.commandRefused .busy 0)
  | none =>
    let first := (s.shadowAt offGiveFirst).toNat
    let stop := min (first + count.toNat) Config.blocks
    giveEnd (s.setPool { s.pool with give := some { position := first, stop := stop, given := 0, skipped := 0 } })

/-- The writes of a give step's run for block b, by the pool standing (R70). A chain returned while the run is
made counts as returned before it, so that the run's second write goes to the new tail (log 35). -/
def Pool.giveWrites (p : Pool) (b : Nat) : List (Nat × Word) :=
  (offBlock b 0, 0xFFFF) ::
    match p.count, p.tail with
    | 0, _ | _, none => []
    | _, some t => [(offBlock t 0, BitVec.ofNat 16 b)]

/-- The pool with a given block at its tail (R70). -/
def Pool.joinBlock (p : Pool) (b : Nat) : Pool :=
  { p with
    head := if p.count = 0 then some b else p.head
    tail := some b
    count := p.count + 1 }

/-- A give step's run has been made (R70): the block at the build position joins the pool at its tail. The end
of the build follows the last block (R71). -/
def giveJoin (g : Give) (s : State) : State :=
  let s := s.setOwner g.position .pool
  let next : Give := { g with position := g.position + 1, given := g.given + 1 }
  poolChanged (giveEnd (s.setPool { s.pool.joinBlock g.position with give := some next }))

/-- A give step on a block that is not PROCESSOR (R70): it is skipped. -/
def giveSkip (g : Give) (s : State) : State :=
  let next : Give := { g with position := g.position + 1, skipped := g.skipped + 1 }
  giveEnd (s.setPool { s.pool with give := some next })

end Sys2Proof.Machine
end

