-- ==== Sys2Proof/Machine/MessageTable.lean ====
section
/-! DEFINITION. The message table (chapter 3): granting and freeing records, the move to DONE, the release
order and the overdue check. -/

namespace Sys2Proof.Machine

/-! ### Granting and freeing (R45, R46, R52) -/

/-- The generation a record takes as it becomes FREE (R45): 511 is followed by 0, or by 1 for record 0. -/
def nextGeneration (r : RecordIdx) (g : Nat) : Nat :=
  if g < 511 then g + 1 else if r = 0 then 1 else 0

/-- A record at its grant: its fields of the grant column of R44, its hold set. -/
def Message.granted (m : Message) (state : RecordState) (origin : Origin) : Message :=
  { Message.free m.generation with
    state := state
    origin := some origin
    hold := true
    flags := { MessageFlags.clear with posted := decide (origin = .posted) } }

/-- A record is granted; the free record count has changed, so the suspension condition is judged (R46,
R76). -/
def grantRecord (r : RecordIdx) (state : RecordState) (origin : Origin) (s : State) : State :=
  judgeSuspension (s.updMessage r fun m => m.granted state origin)

/-- A record becomes FREE under its next generation (R44, R45). -/
def becomeFree (r : RecordIdx) (s : State) : State :=
  s.updMessage r fun m => Message.free (nextGeneration r m.generation)

/-- The freeing of a DONE record (R52): its chain goes back to the pool, MESSAGE_FREED is raised with the tag
it had, and it becomes FREE. A waiting take may then begin, and the suspension condition is judged. -/
def freeRecord (r : RecordIdx) (s : State) : State :=
  let tag := s.tag r
  poolChanged (becomeFree r ((returnChain r s).raise .office tag .messageFreed))

/-- The place a record's origin names (R49, R57). -/
def Message.originPlace (m : Message) : Place :=
  match m.origin with
  | some (.circuit c t) => .circuit c t
  | _ => .office

/-- The freeing of a record whose sender has cancelled it, when the block writer lets go of it (R57). -/
def freeCancelled (r : RecordIdx) (s : State) : State :=
  let tag := s.tag r
  let origin := (s.message r).originPlace
  poolChanged (becomeFree r (((returnChain r s).raise origin tag .cancelledIn).setFill r .empty))

/-! ### The reference count (R48, R51) -/

/-- A delivery is QUEUED or ACTIVE. -/
def Delivery.isPending (d : Delivery) : Bool := d.state = .queued || d.state = .active

/-- The record has a QUEUED or ACTIVE delivery. -/
def Message.hasPending (m : Message) : Bool :=
  allSlots.any fun k => (m.slots[k]).any fun d => d.isPending

/-- What the message table does after an event on a record's deliveries or hold (R48, R52): a ROUTED record with
no delivery QUEUED or ACTIVE moves to DONE, and a DONE record with its hold clear is freed. -/
def settle (r : RecordIdx) (s : State) : State :=
  let s :=
    if (s.message r).state = .routed && !(s.message r).hasPending then
      s.updMessage r fun m => { m with state := .done }
    else s
  if (s.message r).state = .done && !(s.message r).hold then freeRecord r s else s

/-! ### The release word (R53) -/

/-- The checks that release and cancel orders share, in their order: STALE, FREE, FILLING (R53, R54). -/
def State.tagRefusal (s : State) (tag : Word) : Option ReleaseRefusal :=
  let m := s.message (tagRecord tag)
  if tagGeneration tag ≠ m.generation then some .stale
  else
    match m.state with
    | .free => some .free
    | .filling | .posting => some .filling
    | .routed | .done => none

/-- A release order (R53). -/
def releaseOrder (tag : Word) (s : State) : State :=
  let r := tagRecord tag
  match s.tagRefusal tag with
  | some reason => s.raise .office tag (.releaseRefused reason)
  | none =>
    if (s.message r).hold then settle r (s.updMessage r fun m => { m with hold := false })
    else s.raise .office tag (.releaseRefused .noHold)

/-! ### Overdue messages (R58) -/

/-- The overdue limit of a precedence, in minutes (R58, section 11.1). -/
def State.overdueLimit (s : State) : Precedence → Nat
  | .t => highByte (s.shadowAt offOverdueTU)
  | .u => lowByte (s.shadowAt offOverdueTU)
  | .r => highByte (s.shadowAt offOverdueRS)
  | .s => lowByte (s.shadowAt offOverdueRS)

/-- A ROUTED record is overdue (R58): its limit is not 0, it is not reported yet, and its age, modulo
65536, is at least the limit. -/
def State.isOverdue (s : State) (r : RecordIdx) : Bool :=
  let m := s.message r
  let limit := s.overdueLimit m.rank
  let age := (s.minute - m.receiptMinute.getD 0).toNat
  m.state = .routed && decide (limit ≠ 0) && !m.overdueReported && decide (limit ≤ age)

/-- The overdue check of one record (R58). -/
def checkOverdue (s : State) (r : RecordIdx) : State :=
  if s.isOverdue r then
    (s.raise .office (s.tag r) .overdue).updMessage r fun m => { m with overdueReported := true }
  else s

/-- The minute tick (R182, R58): the minute counter rises, and the overdue check is made with the new value. R58
and R174 give no order to the OVERDUE reports of several records: they are raised in ascending record order
(DESIGN CHOICE, log 36). -/
def minuteTick (s : State) : State :=
  allRecords.foldl checkOverdue { s with minute := s.minute + 1, officeDirty := true }

end Sys2Proof.Machine
end

