-- ==== Sys2Proof/Machine/Routing.lean ====
section
/-! DEFINITION. The route unit (chapter 5): availability, the backlog estimate, the choice of each code's
target, the routing event, and the divert; and the message table's taking of a received record (R49, R50). -/

namespace Sys2Proof.Machine

/-! ### Targets and availability (R80, R81) -/

/-- A target with the station a delivery made to it takes (R80): 0 unless the circuit's kind is party. Two
targets are the same exactly when these agree. -/
def State.normalTarget (s : State) (t : Target) : Target :=
  if s.isParty t.circuit then t else { t with station := 0 }

/-- The circuit carries the diverting mark. -/
def State.isDiverting (s : State) (c : Circuit) : Bool := (s.circuit c).control.diverting

/-- A target is available (R81). -/
def State.available (s : State) (t : Target) : Bool :=
  s.mayStart t.circuit &&
  (!s.isParty t.circuit ||
    ((s.station t.circuit t.station).present && (s.station t.circuit t.station).answering))

/-! ### The backlog estimate (R83 to R85) -/

/-- The precedences summed at p: p and every one above it (R83). -/
def Precedence.andAbove : Precedence → List Precedence
  | .t => [.t]
  | .u => [.t, .u]
  | .r => [.t, .u, .r]
  | .s => [.t, .u, .r, .s]

/-- The queued characters Q (R83). -/
def State.queuedCharacters (s : State) (c : Circuit) (p : Precedence) : Nat :=
  (p.andAbove.map fun q => (s.queue c q).count).sum

/-- The in-flight characters R (R84): 9 where a train order would preempt, else the remaining count. DESIGN CHOICE
(log 46): the substitution follows R84's own list of conditions, so it holds with a cancel order pending too, where
R110 says that its conditions, which exclude that, decide it. -/
def State.inFlight (s : State) (c : Circuit) (p : Precedence) : Nat :=
  if p = .t && s.preemptable c then 9
  else if (s.circuit c).send.active.isSome then (s.circuit c).send.remaining else 0

/-- The character time of a circuit, by its transmitter's effective codes (R82). -/
def State.tc (s : State) (c : Circuit) : Nat :=
  characterTime (s.circuit c).line.txSpeed (s.circuit c).line.txStop

/-- The quotient of R85: the product of characters and character time, in tenths of a second, any
remainder raising it by one, saturated at 65535. -/
def backlogOf (characters tc : Nat) : Nat := min ((characters * tc + 999) / 1000) 65535

/-- The backlog estimate of a circuit at a precedence (R83 to R85). -/
def State.backlog (s : State) (c : Circuit) (p : Precedence) : Nat :=
  backlogOf (s.queuedCharacters c p + s.inFlight c p) (s.tc c)

/-! ### Choosing the target of a code (R86) -/

/-- Where a destination position goes (R86). -/
inductive Choice where
  | isLocal
  | intercept
  | target (t : Target)
  deriving DecidableEq, Repr

/-- The choice between a primary and an alternate that is present and not on a diverting circuit, where
the primary's circuit does not divert either (R86, steps 3 to 7). -/
def State.chooseBetween (s : State) (p : Precedence) (pt at' : Target) (threshold : Nat) : Target :=
  if s.normalTarget pt = s.normalTarget at' then pt
  else
    match s.available pt, s.available at' with
    | true, false => pt
    | false, true => at'
    | false, false => pt
    | true, true =>
      if 100 * threshold < s.backlog pt.circuit p &&
          decide (s.backlog at'.circuit p < s.backlog pt.circuit p)
      then at' else pt

/-- The choice for a CIRCUIT entry (R86): step 1 treats an alternate on a diverting circuit as absent,
step 2 turns a diverting primary away, and steps 3 to 7 choose. -/
def State.chooseTarget (s : State) (p : Precedence) (pt : Target) (alternate : Option Target)
    (threshold : Nat) : Choice :=
  let alternate := alternate.filter fun t => !s.isDiverting t.circuit
  match s.isDiverting pt.circuit, alternate with
  | true, some t => .target t
  | true, none => .intercept
  | false, none => .target pt
  | false, some t => .target (s.chooseBetween p pt t threshold)

/-- The route entry of a code, both words read from the shadow in the one event (R79). -/
def State.route (s : State) (code : Code) : Route :=
  routeOf (s.shadowAt (offRoute code)) (s.shadowAt (offRoute code + 1))

/-- The decision for one destination position (R50, R86). -/
def State.choose (s : State) (p : Precedence) : Dest → Choice
  | .badCode => .intercept
  | .code code =>
    match s.route code with
    | .unassigned => .intercept
    | .isLocal => .isLocal
    | .circuit pt alternate threshold => s.chooseTarget p pt alternate threshold

/-! ### Making deliveries (R47, R87, R92) -/

/-- The set that holds one position. -/
def onePosition (i : Nat) : PositionSet := 1 <<< i

/-- A code set added to the group of its target, the groups standing in the order of their lowest
positions (R87). -/
def addToGroup (t : Target) (codes : PositionSet) :
    List (Target × PositionSet) → List (Target × PositionSet)
  | [] => [(t, codes)]
  | (t', codes') :: rest =>
    if t = t' then (t', codes' ||| codes) :: rest else (t', codes') :: addToGroup t codes rest

/-- The result of a routing event: the local set, the intercept set and the groups (R87). -/
structure Routed where
  localSet : PositionSet
  interceptSet : PositionSet
  groups : List (Target × PositionSet)
  deriving DecidableEq, Repr

/-- One position decided and placed, by the state as the event found it (R86, R87). -/
def Routed.place (s : State) (p : Precedence) (done : Routed) (position : Nat × Dest) : Routed :=
  match s.choose p position.2 with
  | .isLocal => { done with localSet := done.localSet ||| onePosition position.1 }
  | .intercept => { done with interceptSet := done.interceptSet ||| onePosition position.1 }
  | .target t =>
    { done with groups := addToGroup (s.normalTarget t) (onePosition position.1) done.groups }

/-- The destination positions with their numbers, 0 first. -/
def numbered : Nat → List Dest → List (Nat × Dest)
  | _, [] => []
  | i, d :: rest => (i, d) :: numbered (i + 1) rest

/-- The whole result for a message (R87): every position is decided against the one state. -/
def State.routeMessage (s : State) (m : Message) : Routed :=
  (numbered 0 m.destinations).foldl (Routed.place s m.rank) ⟨0, 0, []⟩

/-- The lowest-numbered EMPTY slot of a record (R47). -/
def Message.lowestEmpty (m : Message) : Option SlotIdx := allSlots.find? fun k => (m.slots[k]).isNone

/-- A new QUEUED delivery in the lowest EMPTY slot, at the tail of its circuit's queue (R47, R87, R92). -/
def makeDelivery (r : RecordIdx) (s : State) (group : Target × PositionSet) : State :=
  match (s.message r).lowestEmpty with
  | none => s
  | some k =>
    let d : Delivery :=
      { state := .queued, circuit := group.1.circuit, station := group.1.station
        codes := group.2, attempts := 0, saved := none }
    let s := s.updSlot r k fun _ => some d
    let m := s.message r
    s.updQueue d.circuit m.rank fun q =>
      q.joinTail { record := r, slot := k, sentLength := sentLength m d.codes }

/-- The result of routing is taken in one event (R50, R62): sets and deliveries written, the local flag and
the receipt minute set, the record ROUTED or DONE, the deliveries queued, the report raised, and the
schedulers of their circuits judging after all of them have joined (R100). Two deliveries for two stations of one party
circuit join its queue in the order of their slots: DESIGN CHOICE (log 50). -/
def routeRecord (r : RecordIdx) (place : Place) (report : Message → ReportKind) (s : State) : State :=
  let result := s.routeMessage (s.message r)
  let s := s.updMessage r fun m =>
    { m with
      localSet := result.localSet
      interceptSet := result.interceptSet
      flags := { m.flags with isLocal := decide (result.localSet ≠ 0) }
      receiptMinute := some s.minute
      state := if result.groups.isEmpty then .done else .routed }
  let s := result.groups.foldl (makeDelivery r) s
  let s := s.raise place (s.tag r) (report (s.message r))
  settle r (result.groups.foldl (fun s g => judge g.1.circuit s) s)

/-- The set of every position of a destination list (R49). -/
def allPositions (m : Message) : PositionSet := BitVec.ofNat 8 (2 ^ m.destinations.length - 1)

/-- A message that goes to intercept as a whole (R49): DONE with every position in the intercept set. -/
def interceptRecord (r : RecordIdx) (s : State) : State :=
  let s := s.updMessage r fun m =>
    { m with
      flags := { m.flags with intercept := true }
      interceptSet := allPositions m
      receiptMinute := some s.minute
      state := .done }
  let m := s.message r
  settle r (s.raise m.originPlace (s.tag r) (.messageIn m.flagWord))

/-- The block writer has let go of a received record, and the message table takes it with its end cause
(R42, R49, R50). The missing-end flag is set here. -/
def takeReceived (r : RecordIdx) (cause : EndCause) (s : State) : State :=
  let s := s.setFill r .empty
  let s := if cause = .missingEnd then s.updFlags r fun f => { f with missingEnd := true } else s
  if (s.message r).flags.wholeIntercept then interceptRecord r s
  else routeRecord r (s.message r).originPlace (fun m => .messageIn m.flagWord) s

/-! ### The divert (R90 to R94) -/

/-- A divert ends in the event that leaves the circuit's queues empty while it carries the mark (R94): the mark
is cleared and DIVERT_DONE is raised with the two counts; the party scheduler judges (R123). -/
def divertEnd (c : Circuit) (s : State) : State :=
  if s.isDiverting c && (s.circuit c).queues.isEmpty then
    let counts := (s.circuit c).divert
    let s := s.updControl c fun k => { k with diverting := false }
    judge c (s.raise (.circuit c none) 0 (.divertDone counts.taken counts.intercepted))
  else s

/-- The other target of a code whose delivery is taken from circuit c (R91). -/
def State.otherTarget (s : State) (c : Circuit) (d : Dest) : Option Target :=
  match d with
  | .badCode => none
  | .code code =>
    let other : Option Target := match s.route code with
      | .circuit pt alternate _ =>
        if pt.circuit = c then alternate.filter fun t => decide (t.circuit ≠ c) else some pt
      | _ => none
    (other.filter fun t => !s.isDiverting t.circuit).map s.normalTarget

/-- The message's QUEUED delivery for a target (R80, R92). Where two match, as when a party circuit is reopened as a
point one, the code joins the one in the lowest slot (DESIGN CHOICE, log 41). -/
def State.queuedFor (s : State) (r : RecordIdx) (t : Target) : Option SlotIdx :=
  allSlots.find? fun k => match s.delivery r k with
    | some d => d.state = .queued && d.circuit = t.circuit &&
        (!s.isParty t.circuit || d.station = t.station)
    | none => false

/-- A code joins the QUEUED delivery in a slot (R92): its sent length and its queue's count rise by 3. -/
def mergeCode (r : RecordIdx) (k : SlotIdx) (i : Nat) (s : State) : State :=
  match s.delivery r k with
  | none => s
  | some d =>
    let s := s.updSlot r k fun _ => some { d with codes := d.codes ||| onePosition i }
    s.updQueue d.circuit (s.message r).rank fun q => q.lengthen r k 3

/-- One code position of a taken delivery is placed on its other route or in intercept (R91, R92). -/
def divertCode (c : Circuit) (r : RecordIdx) (s : State) (i : Nat) : State :=
  match (s.message r).destinations[i]?.bind (s.otherTarget c) with
  | none =>
    (s.updMessage r fun m => { m with interceptSet := m.interceptSet ||| onePosition i }).updCircuit c
      fun x => { x with divert := { x.divert with intercepted := x.divert.intercepted + 1 } }
  | some t =>
    match s.queuedFor r t with
    | some k => mergeCode r k i s
    | none => makeDelivery r s (t, onePosition i)

/-- The positions of a code set, in ascending order: the order in which a divert step places them, which R91 and R92
leave open (DESIGN CHOICE, log 39). -/
def positionsOf (codes : PositionSet) : List Nat :=
  (allSlots.filter fun i => codes.getLsbD i.val).map fun i => i.val

/-- The circuits the deliveries of a record stand queued on. -/
def State.queuedCircuits (s : State) (r : RecordIdx) : List Circuit :=
  allSlots.filterMap fun k => match s.delivery r k with
    | some d => if d.state = .queued then some d.circuit else none
    | none => none

/-- A divert step takes one delivery (R90 to R93): it leaves its queue, its slot is emptied, and each of its
codes is placed; CODES_INTERCEPTED is raised for the positions that went to intercept. MESSAGE_FREED precedes
DIVERT_DONE where the step leads to both (DESIGN CHOICE, log 43). -/
def divertTake (c : Circuit) (e : QueueEntry) (d : Delivery) (s : State) : State :=
  let r := e.record
  let before := (s.message r).interceptSet
  let s := s.updQueue c (s.message r).rank fun q => q.leave r e.slot
  let s := (s.updSlot r e.slot fun _ => none).updCircuit c fun x =>
    { x with divert := { x.divert with taken := x.divert.taken + 1 } }
  let s := (positionsOf d.codes).foldl (divertCode c r) s
  let gone := d.codes &&& (s.message r).interceptSet &&& ~~~before
  let targets := s.queuedCircuits r
  let s := if gone ≠ 0 then s.raise (.circuit c none) (s.tag r) (.codesIntercepted gone) else s
  targets.foldl (fun s t => judge t s) (divertEnd c (settle r s))

/-- DIVERT_STEP (R90): the head of the diverting circuit's highest queue that is not empty. -/
def divertStep (c : Circuit) (s : State) : State :=
  if s.isDiverting c then
    match s.highestHead c with
    | some e =>
      match s.delivery e.record e.slot with
      | some d => divertTake c e d s
      | none => s
    | none => s
  else s

end Sys2Proof.Machine
end

