-- ==== Sys2Proof/Machine/Posting.lean ====
section
/-! DEFINITION. Posting (R59 to R64, R75): the checks at the trigger, the walk of the posted chain, its
roll-back and its end. -/

namespace Sys2Proof.Machine

/-! ### The trigger (R59, R60) -/

/-- Word `w` of the post record's shadow (section 11.2). -/
def State.postWord (s : State) (w : Nat) : Word := s.shadowAt (offPost + w)

/-- The code words the trigger examines: the first code-count destination codes (R59). -/
def State.postCodes (s : State) : List Word :=
  (List.range (lowByte (s.postWord 2))).map fun i => s.postWord (4 + i)

/-- The check that first fails at the trigger, after BUSY and TABLE_FULL (R59). -/
def State.postFieldRefusal (s : State) : Option PostOutcome :=
  let codes := lowByte (s.postWord 2)
  let blocks := (s.postWord 1).toNat
  if (precedenceOf (highByte (s.postWord 2))).isNone then some .badPrecedence
  else if !(decide (1 ≤ codes) && decide (codes ≤ 8) && codeWordOk (s.postWord 3) &&
      s.postCodes.all codeWordOk) then some .badCodes
  else if !(decide (1 ≤ blocks) && decide (blocks ≤ Config.blocks) &&
      decide ((s.postWord 0).toNat < Config.blocks)) then some .badChain
  else none

/-- The codes in order, a code equal to one already copied passed over (R60). -/
def distinctCodes (codes : List Code) : List Code :=
  codes.foldl (fun done x => if x ∈ done then done else done ++ [x]) []

/-- A refusal at the trigger (R59): POST_REFUSED with tag word 0, and the last post outcome set. A refusal BUSY shows
BUSY until the walk's own outcome is set, as R59 says, where the worked example of section 3.9 shows none in that row:
DESIGN CHOICE (log 48). -/
def refusePost (outcome : PostOutcome) (s : State) : State :=
  (s.setPost s.walk outcome).raise .office 0 (.postRefused outcome)

/-- A post order (R59, R60), whatever value was written. -/
def postOrder (s : State) : State :=
  if s.walk.isSome then refusePost .busy s
  else
    match s.lowestFree, s.postFieldRefusal with
    | none, _ => refusePost .tableFull s
    | some _, some outcome => refusePost outcome s
    | some r, none =>
      let head := (s.postWord 0).toNat
      let s' := (grantRecord r .posting .posted s).updMessage r fun m =>
        { m with
          precedence := precedenceOf (highByte (s.postWord 2))
          originCode := some (codeOf (s.postWord 3))
          destinations := (distinctCodes (s.postCodes.map codeOf)).map .code }
      s'.setPost (some { record := r, head := head, wanted := (s.postWord 1).toNat, taken := 0,
                         sum := 0, block := head, ending := false }) .none

/-! ### The walk (R61 to R63) -/

/-- A refused walk is rolled back in one event (R63, R75): every entry MESSAGE with the walk's record becomes
PROCESSOR. On a chain that loops back this takes in the block that caused the refusal, which the walk had taken
before; R75 also calls that block untouched (DESIGN CHOICE, log 40). -/
def rollBack (w : Walk) (outcome : PostOutcome) (s : State) : State :=
  let tag := s.tag w.record
  let s := (s.rehome w.record .processor).raise .office tag (.postRefused outcome)
  judgeSuspension ((becomeFree w.record s).setPost none outcome)

/-- The walk after a block it has taken (R61, R62): the next block, or the end, or a refusal. -/
def walkOn (w : Walk) (link : Word) (s : State) : State :=
  if w.taken = w.wanted then
    if s.maxLength < w.sum then rollBack w .length s
    else { s with walk := some { w with ending := true } }
  else if link.toNat < Config.blocks then { s with walk := some { w with block := link.toNat } }
  else rollBack w .badChain s

/-- A walk run has read a block's count and link (R61). -/
def walkRead (w : Walk) (s : State) : State :=
  if s.owner w.block = .processor then
    let count := blockCountOf (s.readRelay (offBlock w.block 1))
    let link := s.readRelay (offBlock w.block 0)
    walkOn { w with taken := w.taken + 1, sum := w.sum + count } link
      (s.setOwner w.block (.message w.record))
  else rollBack w .notKept s

/-- The 0xFFFF write into the last walked block's link has been made (R62): the record's chain fields are
written, and the posted message is routed. -/
def walkEnd (w : Walk) (s : State) : State :=
  let s := s.updMessage w.record fun m =>
    { m with
      head := some w.head, tail := some w.block, blockCount := w.wanted, textLength := w.sum }
  routeRecord w.record .office (fun _ => .messagePosted) (s.setPost none .accepted)

end Sys2Proof.Machine
end

