-- ==== Sys2Proof/Machine/BlockWriter.lean ====
section
/-! DEFINITION. The block writer (R39 to R42, R74) and the pool unit's runs that serve it (R72, R73). -/

namespace Sys2Proof.Machine

/-- Characters in a text FIFO; endings take no place (R38, R39). -/
def fifoCharacters (fifo : List FifoItem) : Nat :=
  fifo.countP fun i => match i with
    | .char _ _ => true
    | .ending _ _ => false

/-- The message needs a take: it has no current block, or a full one (R40). -/
def Fill.needsBlock (f : Fill) : Bool := f.current.isNone || decide (f.position = Config.blockCharacters)

/-- A circuit is passed over (R39, R41): its FIFO is empty, or its head message waits for a block, or
needs a take while another take is outstanding. -/
def State.passedOver (s : State) (c : Circuit) : Bool :=
  match (s.circuit c).textFifo.head? with
  | none => true
  | some (.ending _ _) => false
  | some (.char _ r) =>
    decide (r ∈ s.writer.waiting) ||
    ((s.fill r).needsBlock && s.pool.take.isSome &&
      (decide (s.pool.take = some r) || s.writer.waiting.isEmpty))

/-- The circuit the block writer serves next (R39). -/
def State.nextServed (s : State) : Option Circuit :=
  (allCircuits.map fun i => s.writer.turn + i).find? fun c => !s.passedOver c

/-- A message needs a block (R40, R41): the take begins, or the message joins the waiting list because the
pool is empty or others wait. -/
def requestBlock (r : RecordIdx) (s : State) : State :=
  if s.pool.count = 0 || !s.writer.waiting.isEmpty then
    takeRequest { s with writer := { s.writer with waiting := s.writer.waiting ++ [r] } }
  else { s with pool := { s.pool with take := some r } }

/-- The character at a FIFO head goes to its fill position (R39): an even one into the low byte of the
assembled word, leaving the FIFO at once; an odd one into the high byte, its word to be written. -/
def placeCharacter (c : Circuit) (v : RelayChar) (r : RecordIdx) (s : State) : State :=
  let f := s.fill r
  let k := f.position
  let s := { s with writer := { s.writer with turn := c + 1 } }
  if k % 2 = 0 then
    (s.setFill r { f with position := k + 1, assembled := some v }).updFifo c List.tail
  else
    let write : BlockWrite :=
      { offset := offBlock (f.current.getD 0) (2 + (k - 1) / 2)
        value := textWord (f.assembled.getD chBlank) v, after := .leave c r }
    { s with writer := { s.writer with writes := s.writer.writes ++ [write] } }

/-- TEXT_CHARACTER_TAKEN (R39, R40): not due while a write of the block writer is still to be made, or
where its turn has come to an ending. -/
def textCharacterTaken (s : State) : State :=
  if s.writer.writes.isEmpty then
    match s.nextServed with
    | none => s
    | some c =>
      match (s.circuit c).textFifo.head? with
      | some (.char v r) =>
        if (s.fill r).needsBlock then requestBlock r s else placeCharacter c v r s
      | _ => s
  else s

/-- The writes that complete a message's chain (R42): the odd final character's word with BLANK in its high
byte, the count word, and the link word 0xFFFF, after which the record is let go. -/
def endingWrites (f : Fill) (b : Nat) (r : RecordIdx) (cause : EndCause) : List BlockWrite :=
  (if f.position % 2 = 1 then
    [{ offset := offBlock b (2 + (f.position - 1) / 2)
       value := textWord (f.assembled.getD chBlank) chBlank, after := .nothing }]
   else []) ++
  [{ offset := offBlock b 1, value := BitVec.ofNat 16 f.position, after := .nothing },
   { offset := offBlock b 0, value := 0xFFFF, after := .letGo r cause }]

/-- ENDING_REACHED (R42): an ending at the head of the FIFO whose turn it is leaves it; a message with no
block is handed over at once. -/
def endingReached (s : State) : State :=
  if s.writer.writes.isEmpty then
    match s.nextServed with
    | none => s
    | some c =>
      match (s.circuit c).textFifo.head? with
      | some (.ending r cause) =>
        let s := { s with writer := { s.writer with turn := c + 1 } }.updFifo c List.tail
        match (s.fill r).current with
        | none => takeReceived r cause s
        | some b =>
          { s with writer := { s.writer with writes := endingWrites (s.fill r) b r cause } }
      | _ => s
  else s

/-- What follows a block writer write (R39, R40, R42, R74). -/
def afterWrite (a : AfterWrite) (s : State) : State :=
  match a with
  | .nothing => s
  | .leave c r =>
    (s.setFill r { s.fill r with position := (s.fill r).position + 1, assembled := none }).updFifo c
      List.tail
  | .joined r => if (s.fill r).cancelled then freeCancelled r s else s
  | .letGo r cause => takeReceived r cause s

/-- A write of the block writer has been made (R39). One that its sender's cancel has withdrawn while it was on
the M-port leads to nothing (R29, log 19). -/
def blockWritten (w : BlockWrite) (s : State) : State :=
  match s.writer.writes with
  | [] => s
  | first :: rest =>
    if first = w then afterWrite w.after { s with writer := { s.writer with writes := rest } } else s

/-- The writes that join a new block to a chain (R40): the old block's count word with 60, then its link. -/
def joinWrites (old new : Nat) (r : RecordIdx) : List BlockWrite :=
  [{ offset := offBlock old 1, value := BitVec.ofNat 16 Config.blockCharacters, after := .nothing },
   { offset := offBlock old 0, value := BitVec.ofNat 16 new, after := .joined r }]

/-- The record with a block added to its chain (R40). -/
def Message.addBlock (m : Message) (b : Nat) : Message :=
  { m with head := some (m.head.getD b), tail := some b, blockCount := m.blockCount + 1 }

/-- A take completes for record r, with block b the pool head (R40, R72). -/
def completeTake (r : RecordIdx) (b : Nat) (s : State) : State :=
  let link := s.readRelay (offBlock b 0)
  let f := s.fill r
  let s := (s.setPool (s.pool.removeHead b link)).setOwner b (.message r)
  let s := (s.updMessage r fun m => m.addBlock b).setFill r
    { f with current := some b, position := 0, assembled := none }
  let s := { s with writer := { s.writer with
    waiting := s.writer.waiting.filter fun x => decide (x ≠ r)
    writes := s.writer.writes ++ (match f.current with
      | some old => joinWrites old b r
      | none => []) } }
  let s := if f.cancelled && f.current.isNone then freeCancelled r s else s
  poolChanged s

/-- The sender's cancel reaches the block writer (R29): the record's characters leave the text FIFO, it
leaves the waiting list, and the block writer lets go of it at once, or after a take in progress and the
writes that join its block (R74). -/
def cancelFilling (c : Circuit) (r : RecordIdx) (s : State) : State :=
  let s := s.updFifo c fun fifo => fifo.filter fun i => match i with
    | .char _ r' => decide (r' ≠ r)
    | .ending _ _ => true
  let s := { s with writer := { s.writer with
    waiting := s.writer.waiting.filter fun x => decide (x ≠ r)
    writes := s.writer.writes.filter fun w => decide (w.after ≠ .leave c r) } }
  if s.pool.take = some r || s.writer.writes.any (fun w => decide (w.after = .joined r)) then
    s.setFill r { s.fill r with cancelled := true }
  else freeCancelled r s

end Sys2Proof.Machine
end

