-- ==== Sys2Proof/Machine/Dialogue.lean ====
section
/-! DEFINITION. The party dialogue's own moves (chapter 7): entering QUIET and REPLYING, station states, failed
attempts, and what the ending of an inbound message does. -/

namespace Sys2Proof.Machine

/-- The dialogue enters QUIET; the wait it was timing ends (R120, R128). -/
def enterQuiet (c : Circuit) (s : State) : State :=
  s.updDialogue c fun d =>
    { d with state := .quiet, answerTimer := none, lineEndWait := false, pollReply := none }

/-- The dialogue enters QUIET and the scheduler judges (R123). -/
def quietAndJudge (c : Circuit) (s : State) : State := judge c (enterQuiet c s)

/-- The line-end wait ends and the dialogue enters REPLYING (R132, R133). -/
def enterReplying (c : Circuit) (s : State) : State :=
  s.updDialogue c fun d =>
    { d with state := .replying, sequencePos := 0, answerTimer := none, lineEndWait := false }

/-- A wait for a station begins (R120, R124, R126, R130): the answer timer is loaded with the effective
answer timeout, the match position is 0 and the answer case LETTERS. -/
def beginWait (c : Circuit) (state : DialogueState) (s : State) : State :=
  let timeout := (s.circuit c).control.effective.answerTimeout
  s.updDialogue c fun d =>
    { d with
      state := state, answerTimer := some timeout, matchPos := 0, answerShift := .letters
      pollReply := none }

/-- A failed attempt of a station (R128, R129): its failure count rises, saturating at 7; at the retry limit
an ANSWERING station becomes NOT_ANSWERING, and STATION is raised. -/
def stationFailed (c : Circuit) (t : StationIdx) (s : State) : State :=
  let failures := min ((s.station c t).failures + 1) 7
  let limit := (s.circuit c).control.effective.retryLimit
  let fails := decide (limit ≤ failures) && (s.station c t).answering
  let s := s.updStation c t fun x =>
    { x with failures := failures, answering := x.answering && !fails }
  if fails then s.raise (.circuit c (some t)) 0 (.station false) else s

/-- A good answer sets the failure count to 0 (R128). -/
def stationGood (c : Circuit) (t : StationIdx) (s : State) : State :=
  s.updStation c t fun x => { x with failures := 0 }

/-- A station becomes ANSWERING with failure count 0, by a good poll reply or a STATION_RESET; STATION is
raised if its state changed (R129, R151). -/
def stationAnswers (c : Circuit) (t : StationIdx) (s : State) : State :=
  let was := (s.station c t).answering
  let s := s.updStation c t fun x => { x with failures := 0, answering := true }
  if was then s else s.raise (.circuit c (some t)) 0 (.station true)

/-- A failed attempt (R128). In RECEIPT_WAIT the delivery returns to its queue with its saved number kept,
and the circuit controller is told that the transmission has ended. -/
def failedAttempt (c : Circuit) (s : State) : State :=
  let d := (s.circuit c).dialogue
  let s := s.updDialogue c fun d => { d with answerTimer := none }
  let s := if d.state = .receiptWait then transmissionEnded c (returnDelivery c true s) else s
  let s := match d.selected with
    | some t => stationFailed c t s
    | none => s
  quietAndJudge c s

/-- The recogniser tells the dialogue controller of an ending (R38, R132). -/
def dialogueEnding (c : Circuit) (cause : EndCause) (clean : Bool) (s : State) : State :=
  if s.isParty c && (s.circuit c).dialogue.state = .inbound then
    match cause with
    | .eom =>
      let timeout := (s.circuit c).control.effective.answerTimeout
      s.updDialogue c fun d =>
        { d with
          replyOwed := some (if clean then .accepted else .refused)
          lineEndWait := true, answerTimer := some timeout }
    | .missingEnd => s
    | .senderCancel => quietAndJudge c s
    | .silence => failedAttempt c s
    | .stopped => s
  else s

/-- The dialogue of a circuit that is closed or stopped goes to QUIET from any state (R137). -/
def stopDialogue (c : Circuit) (s : State) : State :=
  s.updDialogue c fun d =>
    { d with
      state := .quiet, answerTimer := none, pollTimer := none, pollExpired := false, matchPos := 0
      pollReply := none, replyOwed := none, lineEndWait := false }

end Sys2Proof.Machine
end

