-- ==== Sys2Proof/Machine/Recogniser.lean ====
section
/-! DEFINITION. The message recogniser (chapter 2): the start of a message, its heading and destination
line, the line-start watch, text, discard, and the endings. -/

namespace Sys2Proof.Machine

def State.recogniser (s : State) (c : Circuit) : Recogniser := (s.circuit c).recogniser

/-- The silence timer's load (R36): 100 office ticks for each second, and none for a limit of 0. -/
def silenceLoad (seconds : Nat) : Option Nat := if seconds = 0 then none else some (100 * seconds)

/-- The silence load of a circuit. -/
def State.silenceLoad (s : State) (c : Circuit) : Option Nat :=
  Sys2Proof.Machine.silenceLoad (s.circuit c).control.effective.silenceLimit

/-- The station whose message a party circuit's recogniser receives (R22, R131). -/
def State.inboundStation (s : State) (c : Circuit) : Option StationIdx :=
  s.partyStation c (s.circuit c).dialogue.selected

/-- The circuit controller sets the receive state to HUNT (R19). -/
def Recogniser.toHunt (q : Recogniser) : Recogniser :=
  { q with state := .hunt, shift := .letters, lineStart := true, held := [], somCount := 0 }

/-! ### Start of message (R22) -/

/-- A start of message: a FREE record is granted and the heading line begins, or the recogniser enters
DISCARD with cause TABLE_FULL (R22). -/
def startMessage (c : Circuit) (s : State) : State :=
  let load := s.silenceLoad c
  match s.lowestFree with
  | some r =>
    (grantRecord r .filling (.circuit c (s.inboundStation c)) s).updRecogniser c fun q =>
      { q with
        state := .headingLine, headPos := .afterSom false, lineStart := false, held := []
        somCount := 0, filling := some r, silence := load }
  | none =>
    s.updRecogniser c fun q =>
      { q with
        state := .discard, discardCause := some .tableFull, filling := none, dropped := 0
        held := [], somCount := 0, silence := load }

/-! ### Endings (R28 to R30, R35 to R38) -/

/-- The end of a discard (R35): RECEIVE_LOSS for POOL_EMPTY and TABLE_FULL, then the cause is none and the
dropped count 0. -/
def discardEnd (c : Circuit) (s : State) : State :=
  let q := s.recogniser c
  let place := Place.circuit c (s.inboundStation c)
  let s := match q.discardCause, q.filling with
    | some .tableFull, _ => s.raise place 0 (.receiveLoss true q.dropped)
    | some .poolEmpty, some r => s.raise place (s.tag r) (.receiveLoss false q.dropped)
    | some .poolEmpty, none => s.raise place 0 (.receiveLoss false q.dropped)
    | _, _ => s
  s.updRecogniser c fun q => { q with discardCause := none, dropped := 0 }

/-- The message ends (R38): its ending enters the text FIFO behind its last character, the recogniser enters
HUNT, and a party dialogue is told. -/
def endMessage (c : Circuit) (cause : EndCause) (lineStart : Bool) (s : State) : State :=
  let s := discardEnd c s
  let filling := (s.recogniser c).filling
  let clean := match filling with
    | some r => decide (cause = .eom) && (s.message r).flags.clean
    | none => false
  let s := match filling with
    | some r => s.updFifo c fun fifo => fifo ++ [FifoItem.ending r cause]
    | none => s
  let s := s.updRecogniser c fun q =>
    { q with state := .hunt, lineStart := lineStart, held := [], somCount := 0, filling := none }
  dialogueEnding c cause clean s

/-- EEEE (R28). In DEST_LINE no destination has been read. -/
def patternEom (c : Circuit) (s : State) : State :=
  let q := s.recogniser c
  let s := match q.state, q.filling with
    | .destLine, some r => s.updFlags r fun f => { f with headingError := some .noDestination }
    | _, _ => s
  endMessage c .eom false s

/-- QQQQ (R29): the discard ends, and the cancel goes to the block writer at once. -/
def patternCancel (c : Circuit) (s : State) : State :=
  let s := discardEnd c s
  let filling := (s.recogniser c).filling
  let s := s.updRecogniser c fun q =>
    { q with state := .hunt, lineStart := false, held := [], somCount := 0, filling := none }
  let s := match filling with
    | some r => cancelFilling c r s
    | none => s
  dialogueEnding c .senderCancel false s

/-- HHH inside a message (R30): it ends with MISSING_END, and a new start of message is made at once. -/
def patternSom (c : Circuit) (s : State) : State :=
  startMessage c (endMessage c .missingEnd true s)

/-! ### Hunt (R21) -/

/-- A character in HUNT (R21). -/
def huntChar (c : Circuit) (ch : RxChar) (s : State) : State :=
  let q := s.recogniser c
  if ch.isCommon chLF then s.updRecogniser c fun q => { q with lineStart := true, somCount := 0 }
  else if ch.isShift then s
  else if ch.isTheLetter chH && q.lineStart then
    if q.somCount + 1 = 3 then startMessage c (s.updRecogniser c fun q => { q with somCount := 0 })
    else s.updRecogniser c fun q => { q with somCount := q.somCount + 1 }
  else s.updRecogniser c fun q => { q with somCount := 0, lineStart := false }

/-! ### The heading line (R23 to R25) -/

/-- What a character does at a position of the heading line (R23). -/
inductive HeadStep where
  | move (pos : HeadPos)
  | number (n : Nat)
  | precedence (p : Precedence)
  | originCode (first second : RelayChar)
  | lineEnd
  | deviation (reason : HeadingError)
  deriving DecidableEq, Repr

/-- The precedence letter of a heading (R23). -/
def RxChar.precedence? (ch : RxChar) : Option Precedence :=
  if ch.isTheLetter chT then some .t
  else if ch.isTheLetter chU then some .u
  else if ch.isTheLetter chR then some .r
  else if ch.isTheLetter chS then some .s
  else none

/-- The table of R23. -/
def headStep (pos : HeadPos) (ch : RxChar) : HeadStep :=
  match pos with
  | .afterSom space =>
    if ch.isCommon chSpace then .move (.afterSom true)
    else match ch.digit?, space with
      | some d, true => .move (.channel [d])
      | _, _ => .deviation .badChannel
  | .channel digits =>
    match ch.digit?, digits with
    | some d, [a] => .move (.channel [a, d])
    | some d, [a, b] => .move (.channel [a, b, d])
    | none, [a, b, e] =>
      if ch.isCommon chSpace && decide (0 < 100 * a + 10 * b + e) then .number (100 * a + 10 * b + e)
      else .deviation .badChannel
    | _, _ => .deviation .badChannel
  | .afterChannel =>
    if ch.isCommon chSpace then .move .afterChannel
    else match ch.precedence? with
      | some p => .precedence p
      | none => .deviation .badPrecedence
  | .afterPrecedence space =>
    if ch.isCommon chSpace then .move (.afterPrecedence true)
    else if !space then .deviation .badPrecedence
    else if ch.isLetter then .move (.origin ch.value none)
    else .deviation .badOrigin
  | .origin first none =>
    if ch.isLetter then .originCode first ch.value else .deviation .badOrigin
  | .origin _ (some _) =>
    if ch.isCommon chSpace then .move .afterOrigin
    else if ch.isCommon chLF then .lineEnd
    else .deviation .badOrigin
  | .afterOrigin =>
    if ch.isCommon chSpace then .move .afterOrigin
    else if ch.isCommon chLF then .lineEnd
    else .deviation .badOrigin

/-- The outcome of the channel sequence check (R25). -/
inductive SequenceResult where
  | accepted | duplicate | gap (expected : Nat)
  deriving DecidableEq, Repr

/-- The channel sequence check, with the number expected after it (R25). -/
def sequenceCheck (expected : Option Nat) (n : Nat) : SequenceResult × Option Nat :=
  match expected with
  | none => (.accepted, some (nextChannel n))
  | some e =>
    if n = e then (.accepted, some (nextChannel e))
    else if n = previousChannel e then (.duplicate, some e)
    else (.gap e, some (nextChannel n))

/-- The expected incoming number the check uses: the sending station's on a party circuit, else the
circuit's (R19, R25). -/
def State.expectedNumber (s : State) (c : Circuit) : Option Nat :=
  match s.inboundStation c with
  | some t => (s.station c t).expected
  | none => (s.recogniser c).expected

def setExpected (c : Circuit) (e : Option Nat) (s : State) : State :=
  match s.inboundStation c with
  | some t => s.updStation c t fun x => { x with expected := e }
  | none => s.updRecogniser c fun q => { q with expected := e }

/-- A valid channel number is taken and its sequence check made (R23, R25). -/
def takeNumber (c : Circuit) (r : RecordIdx) (n : Nat) (s : State) : State :=
  let result := sequenceCheck (s.expectedNumber c) n
  let s := setExpected c result.2 (s.updMessage r fun m => { m with channel := some n })
  match result.1 with
  | .accepted => s
  | .duplicate => s.updFlags r fun f => { f with duplicate := true }
  | .gap e => s.raise (.circuit c (s.inboundStation c)) (s.tag r) (.sequence e)

/-- A move of the heading line applied (R23, R24). A deviation by an LF has already ended the heading line. -/
def applyHead (c : Circuit) (r : RecordIdx) (ch : RxChar) (step : HeadStep) (s : State) : State :=
  match step with
  | .move pos => s.updRecogniser c fun q => { q with headPos := pos }
  | .number n => (takeNumber c r n s).updRecogniser c fun q => { q with headPos := .afterChannel }
  | .precedence p =>
    (s.updMessage r fun m => { m with precedence := some p }).updRecogniser c fun q =>
      { q with headPos := .afterPrecedence false }
  | .originCode a b =>
    (s.updMessage r fun m => { m with originCode := some ⟨a, b⟩ }).updRecogniser c fun q =>
      { q with headPos := .origin a (some b) }
  | .lineEnd => s.updRecogniser c fun q => { q with state := .destLine, token := .empty, lineStart := true }
  | .deviation reason =>
    let isLF := ch.isCommon chLF
    (s.updFlags r fun f => { f with headingError := some reason }).updRecogniser c fun q =>
      { q with
        state := .skipHeading, lfToCome := if isLF then 1 else 2
        lineStart := if isLF then true else q.lineStart }

/-- A character in HEADING_LINE: shift characters and CR are passed over (R20, R23). -/
def headingChar (c : Circuit) (ch : RxChar) (s : State) : State :=
  let q := s.recogniser c
  if ch.isShift || ch.isCommon chCR then s
  else match q.filling with
    | some r => applyHead c r ch (headStep q.headPos ch) s
    | none => s

/-! ### The destination line (R26) -/

/-- The next position filled, or the too-many-codes flag set (R26). -/
def Message.addDest (m : Message) (d : Dest) : Message :=
  if m.destinations.length < 8 then { m with destinations := m.destinations ++ [d] }
  else { m with flags := { m.flags with tooManyCodes := true } }

/-- The end of a token (R26). A code already in the list takes no position. -/
def Message.endToken (m : Message) : Token → Message
  | .empty => m
  | .two a b => if .code ⟨a, b⟩ ∈ m.destinations then m else m.addDest (.code ⟨a, b⟩)
  | .one _ => m.addDest .badCode
  | .bad => m.addDest .badCode

/-- A token with one more character (R26). -/
def Token.add (t : Token) (ch : RxChar) : Token :=
  match t, ch.isLetter with
  | .empty, true => .one ch.value
  | .one a, true => .two a ch.value
  | _, _ => .bad

/-- A character of the destination line (R26): SPACE and LF end a token, and the LF ends the line. -/
def destChar (c : Circuit) (ch : RxChar) (s : State) : State :=
  let q := s.recogniser c
  if ch.isShift || ch.isCommon chCR then s
  else match q.filling with
    | none => s
    | some r =>
      if ch.isCommon chSpace then
        (s.updMessage r fun m => m.endToken q.token).updRecogniser c fun q => { q with token := .empty }
      else if ch.isCommon chLF then
        let s := s.updMessage r fun m => m.endToken q.token
        let s := if (s.message r).destinations.isEmpty then
            s.updFlags r fun f => { f with headingError := some .noDestination }
          else s
        s.updRecogniser c fun q => { q with token := .empty, state := .text, lineStart := true }
      else s.updRecogniser c fun q => { q with token := q.token.add ch }

/-! ### Text and discard (R32 to R35) -/

/-- One more character dropped in a discard (R35). -/
def dropOne (c : Circuit) (s : State) : State :=
  s.updRecogniser c fun q => { q with dropped := min (q.dropped + 1) 65535 }

/-- A character offered to the text FIFO (R32 to R34): it enters and the text length rises, which may reach the
maximum; or the FIFO is full and the message is truncated. -/
def offerText (c : Circuit) (ch : RxChar) (s : State) : State :=
  match (s.recogniser c).filling with
  | none => s
  | some r =>
    if fifoCharacters (s.circuit c).textFifo < Config.textFifoPlaces then
      let s := (s.updFifo c fun fifo => fifo ++ [FifoItem.char ch.value r]).updMessage r fun m =>
        { m with textLength := m.textLength + 1 }
      if s.maxLength ≤ (s.message r).textLength then
        (s.updFlags r fun f => { f with lengthLimit := true }).updRecogniser c fun q =>
          { q with state := .discard, discardCause := some .length, dropped := 0 }
      else s
    else
      (s.updFlags r fun f => { f with truncated := true }).updRecogniser c fun q =>
        { q with state := .discard, discardCause := some .poolEmpty, dropped := 1 }

/-- The ordinary handling of a character by the receive state (R24, R26, R32, R35), `counted` if its arrival
in DISCARD has already counted it as dropped. An LF sets line start in every receive state (R20). -/
def ordinaryChar (c : Circuit) (counted : Bool) (ch : RxChar) (s : State) : State :=
  let isLF := ch.isCommon chLF
  match (s.recogniser c).state with
  | .destLine => destChar c ch s
  | .text =>
    let s := offerText c ch s
    if isLF then s.updRecogniser c fun q => { q with lineStart := true } else s
  | .skipHeading =>
    if isLF then s.updRecogniser c fun q =>
      { q with
        lineStart := true, lfToCome := q.lfToCome - 1
        state := if q.lfToCome ≤ 1 then .text else .skipHeading }
    else s
  | .discard =>
    let s := if counted then s else dropOne c s
    if isLF then s.updRecogniser c fun q => { q with lineStart := true } else s
  | .hunt => s
  | .headingLine => s

/-! ### The line-start watch (R27) -/

/-- What a character at line start does (R27). -/
inductive WatchStep where
  | hold | complete (letter : RelayChar) | break
  deriving DecidableEq, Repr

/-- The letters that complete a pattern: three H, four E or Q (R27). -/
def patternLength (letter : RelayChar) : Nat := if letter = chH then 3 else 4

/-- The table of R27. The first letter held has chosen the pattern. A CR is "any other character" of the table, and
breaks the pattern also where R20 passes it over at line start in DEST_LINE (DESIGN CHOICE, log 38). -/
def watchStep (held : List RxChar) (ch : RxChar) : WatchStep :=
  let letters := held.filter fun h => !h.isShift
  let fits := ch.isTheLetter chE || ch.isTheLetter chQ || ch.isTheLetter chH
  let matching := match letters with
    | [] => true
    | h :: _ => h.value = ch.value
  if 8 ≤ held.length then .break
  else if ch.isShift then .hold
  else if fits && matching then
    if letters.length + 1 = patternLength ch.value then .complete ch.value else .hold
  else .break

/-- The held characters are released in order to the receive state's ordinary handling (R27). -/
def releaseHeld (c : Circuit) (counted : Bool) (s : State) : State :=
  let held := (s.recogniser c).held
  held.foldl (fun s h => ordinaryChar c counted h s)
    (s.updRecogniser c fun q => { q with held := [] })

/-- The pattern breaks (R27): release, line start cleared, then the breaking character. -/
def breakPattern (c : Circuit) (counted : Bool) (ch : RxChar) (s : State) : State :=
  let s := (releaseHeld c counted s).updRecogniser c fun q => { q with lineStart := false }
  ordinaryChar c counted ch s

/-- A completed pattern is acted on; its held characters are consumed (R27 to R30). -/
def patternDone (c : Circuit) (letter : RelayChar) (s : State) : State :=
  let s := s.updRecogniser c fun q => { q with held := [] }
  if letter = chE then patternEom c s
  else if letter = chQ then patternCancel c s
  else patternSom c s

/-- A character in DEST_LINE, TEXT, SKIP_HEADING or DISCARD (R27). -/
def watchChar (c : Circuit) (counted : Bool) (ch : RxChar) (s : State) : State :=
  let q := s.recogniser c
  if q.lineStart then
    match watchStep q.held ch with
    | .hold => s.updRecogniser c fun q => { q with held := q.held ++ [ch] }
    | .complete letter => patternDone c letter s
    | .break => breakPattern c counted ch s
  else ordinaryChar c counted ch s

/-! ### A character handed to the recogniser (R7, R20, R31, R36) -/

/-- A mutilated character counts in the filling record, up to 255 (R31). -/
def countMutilated (c : Circuit) (mutilated : Bool) (s : State) : State :=
  match mutilated, (s.recogniser c).filling with
  | true, some r => s.updMessage r fun m => { m with mutilated := min (m.mutilated + 1) 255 }
  | _, _ => s

/-- A character handed to the recogniser. It reloads the silence timer (R36), sets the case (R20), and is
counted if mutilated (R31) or if it arrives in DISCARD (R35). -/
def recogniserChar (c : Circuit) (value : RelayChar) (mutilated : Bool) (s : State) : State :=
  let shift := shiftAfter (s.recogniser c).shift value mutilated
  let ch : RxChar := { value := value, mutilated := mutilated, shift := shift }
  let load := s.silenceLoad c
  let s := countMutilated c mutilated
    (s.updRecogniser c fun q => { q with shift := shift, silence := load })
  match (s.recogniser c).state with
  | .hunt => huntChar c ch s
  | .headingLine => headingChar c ch s
  | .destLine => watchChar c false ch s
  | .text => watchChar c false ch s
  | .skipHeading => watchChar c false ch s
  | .discard => watchChar c true ch (dropOne c s)

/-! ### Silence and stopping (R36, R37) -/

/-- The record being filled is marked truncated. -/
def markTruncated (c : Circuit) (s : State) : State :=
  match (s.recogniser c).filling with
  | some r => s.updFlags r fun f => { f with truncated := true }
  | none => s

/-- SILENCE_EXPIRY (R36): due once the silence timer has run out. -/
def silenceExpiry (c : Circuit) (s : State) : State :=
  if (s.recogniser c).silence = some 0 then
    let counted := decide ((s.recogniser c).state = .discard)
    let s := s.updRecogniser c fun q => { q with silence := none }
    if (s.recogniser c).state = .hunt then s
    else endMessage c .silence true (markTruncated c (releaseHeld c counted s))
  else s

/-- Reception ends because the circuit is closed or stopped (R37). In HUNT nothing changes. -/
def stopReception (c : Circuit) (s : State) : State :=
  if (s.recogniser c).state = .hunt then s
  else
    endMessage c .stopped true
      (markTruncated c (s.updRecogniser c fun q => { q with held := [] }))

end Sys2Proof.Machine
end

