-- ==== Sys2Proof/Machine/Transmission.lean ====
section
/-! DEFINITION. How a transmission ends and goes on: completion, receipts, cancel lines, break-off (sections 6.7 to
6.10, 7.4, 7.7), the character boundary and the send tick (R8 to R10), the text fetch (R105, R106) and the
cancel order (R54, R55, R114). -/

namespace Sys2Proof.Machine

/-! ### The ends of a transmission -/

/-- After a transmission has ended (R108, R112, R114, R127): the circuit controller is told, and the
schedulers judge; on a party circuit the dialogue enters QUIET first. -/
def afterTransmission (c : Circuit) (s : State) : State :=
  let s := transmissionEnded c s
  if s.isParty c then quietAndJudge c s else judgePoint c s

/-- The place a report about a circuit's active delivery names: its station on a party circuit (R178). -/
def State.deliveryPlace (s : State) (c : Circuit) (d : Delivery) : Place :=
  .circuit c (s.partyStation c (some d.station))

/-- The active delivery becomes DONE or CANCELLED, and the send controller goes to phase NONE (R51). -/
def endActive (c : Circuit) (r : RecordIdx) (k : SlotIdx) (state : DeliveryState) (s : State) : State :=
  endSend c (s.updSlot r k fun d => d.map fun d => { d with state := state })

/-- The active delivery is DONE (R108, R127): DELIVERED with its slot and channel number, then R48. -/
def deliverActive (c : Circuit) (s : State) : State :=
  let x := (s.circuit c).send
  match x.active with
  | none => s
  | some (r, k) =>
    match s.delivery r k with
    | none => endSend c s
    | some d =>
      let tag := s.tag r
      let place := s.deliveryPlace c d
      settle r ((endActive c r k .done s).raise place tag (.delivered k (x.channel.getD 0)))

/-- The active delivery is CANCELLED (R55, R114, R135). -/
def cancelActive (c : Circuit) (s : State) : State :=
  match (s.circuit c).send.active with
  | none => s
  | some (r, k) => settle r (endActive c r k .cancelled s)

/-- A preemption's cancel line has gone (R112): the delivery returns to the head of its queue and PREEMPTED is
raised. -/
def preemptReturn (c : Circuit) (s : State) : State :=
  match (s.circuit c).send.active with
  | none => s
  | some (r, k) =>
    let place := match s.delivery r k with
      | some d => s.deliveryPlace c d
      | none => .circuit c none
    (returnDelivery c false s).raise place (s.tag r) .preempted

/-- The last trailer character has left the line (R108, R109). On a party circuit the delivery waits for its
receipt, unless a cancel order is pending (R135). -/
def trailerEnd (c : Circuit) (s : State) : State :=
  if s.isParty c then
    let pending := (s.circuit c).send.pendingCancel
    let s := beginWait c .receiptWait
      (s.updSend c fun x => { x with phase := .receipt, position := 0, remaining := 0, pendingCancel := false })
    if pending then afterTransmission c (cancelActive c s) else s
  else afterTransmission c (deliverActive c s)

/-- The last character of a cancel line has left the line (R112, R114). -/
def cancelLineEnd (c : Circuit) (s : State) : State :=
  if (s.circuit c).send.cause = some .order then afterTransmission c (cancelActive c s)
  else afterTransmission c (preemptReturn c s)

/-! ### Reports of characters that have left the line (R9, R116) -/

/-- The phase reached once every character of the present one has left (R103, R104, R106). -/
def enterPhase (c : Circuit) (phase : Phase) (s : State) : State :=
  s.updSend c fun x => { x with phase := phase, position := 0 }

/-- A character the send controller offered has left the line (R103 to R107, R114, R116): the remaining
count falls, a pending cancel order begins its cancel line, or the phase goes on. -/
def sendCharLeft (c : Circuit) (s : State) : State :=
  let x := (s.circuit c).send
  let phaseDone := decide ((s.phaseLine c).length ≤ x.position + 1)
  let length := match x.active with
    | some (r, _) => (s.message r).textLength
    | none => 0
  let s := s.updSend c fun x => { x with remaining := x.remaining - 1, position := x.position + 1 }
  if x.pendingCancel && x.phase.beforeTrailer then beginCancelLine c .order s
  else
    match x.phase with
    | .heading => if phaseDone then enterPhase c .dest s else s
    | .dest =>
      if phaseDone then enterPhase c (if length = 0 then .trailer else .text) s else s
    | .text => if length ≤ x.position + 1 then enterPhase c .trailer s else s
    | .trailer => if phaseDone then trailerEnd c s else s
    | .cancel => if phaseDone then cancelLineEnd c s else s
    | .idle => s
    | .receipt => s

/-- A character of a select, poll or reply sequence has left the line (R124, R130, R133). -/
def dialogueCharLeft (c : Circuit) (s : State) : State :=
  let d := (s.circuit c).dialogue
  let finished := decide ((s.dialogueSequence c).length ≤ d.sequencePos + 1)
  let s := s.updDialogue c fun d => { d with sequencePos := d.sequencePos + 1 }
  match d.state, finished with
  | .calling, true => beginWait c .answerWait s
  | .pollSending, true => beginWait c .pollWait s
  | .replying, true => quietAndJudge c (s.updDialogue c fun d => { d with replyOwed := none })
  | _, _ => s

/-- The transmitter's character ends at this send tick (R8). -/
def Transmitter.boundaryDue : Transmitter → Bool
  | .idle => false
  | .sending _ tick total _ => decide (total ≤ tick + 1)

/-- CHARACTER_BOUNDARY (R9 to R11, R110): the source is told, the transmitter compares speeds, the send
scheduler may preempt, and the next character is taken. That the source is told before the transmitter compares, so
that a SETTING_HELD of the comparison follows the reports of the finished character: DESIGN CHOICE (log 49). -/
def characterBoundary (c : Circuit) (s : State) : State :=
  match (s.circuit c).line.transmitter with
  | .idle => s
  | .sending _ tick total source =>
    if total ≤ tick + 1 then
      let s := s.updLine c fun l => { l with transmitter := .idle, txTicksDue := l.txTicksDue - 1 }
      let s := match source with
        | some .sendController => sendCharLeft c s
        | some .dialogue => dialogueCharLeft c s
        | none => s
      let s := compareSpeed false true c s
      takeOffered c (if s.preempts c then beginCancelLine c .preempt s else s)
    else s

/-- SEND_TICK (R8, R9, R99, R110, R114): not due where the tick is a character boundary. While IDLE a pending
cancel order or a preemption in TEXT begins its cancel line, whose first character goes out at the next
tick; else the character offered begins its start element. -/
def sendTick (c : Circuit) (s : State) : State :=
  match (s.circuit c).line.transmitter with
  | .idle =>
    let x := (s.circuit c).send
    let s := s.updLine c fun l => { l with txTicksDue := l.txTicksDue - 1 }
    if x.pendingCancel && x.phase.beforeTrailer then beginCancelLine c .order s
    else if x.phase = .text && s.preempts c then beginCancelLine c .preempt s
    else takeOffered c s
  | .sending char tick total source =>
    if total ≤ tick + 1 then s
    else s.updLine c fun l =>
      { l with transmitter := .sending char (tick + 1) total source, txTicksDue := l.txTicksDue - 1 }

/-! ### The text fetch (R105, R106, R169) -/

/-- A fetch has its count-and-link read ready. -/
def Fetch.blockReady (f : Fetch) : Bool := f.run.isNone

/-- A fetch has a text word read ready: two free places in the send FIFO, or one when a single character is
still needed from the block (R105). -/
def SendController.textReady (x : SendController) : Bool :=
  match x.fetch with
  | some { run := some run, .. } => decide (x.fifo.length + min run.left 2 ≤ Config.sendFifoPlaces)
  | _ => false

/-- A send controller has a read ready. -/
def SendController.readReady (x : SendController) : Bool :=
  x.textReady || (match x.fetch with
    | some f => f.blockReady
    | Option.none => false)

/-- The send controller the fetcher serves next: upward from the circuit after the last (R169). -/
def State.nextFetch (s : State) : Option Circuit :=
  (allCircuits.map fun i => s.fetchLast + 1 + i).find? fun c => (s.circuit c).send.readReady

/-- A count-and-link read (R105): the characters to read are the smaller of the count and those still to be
fetched; a block that gives none is left for the one its link names. -/
def Fetch.readBlock (f : Fetch) (count link : Word) : Fetch :=
  let left := min (blockCountOf count) f.toFetch
  if left = 0 then { f with block := link.toNat, run := none }
  else { f with run := some { left := left, word := 0, link := link } }

/-- A text word read (R105): the characters it gives, and the fetch after it, which ends when nothing is left
to fetch. -/
def Fetch.readText (f : Fetch) (run : BlockFetch) (w : Word) : List RelayChar × Option Fetch :=
  let n := min run.left 2
  let chars := if n = 2 then [firstChar w, secondChar w] else [firstChar w]
  let toFetch := f.toFetch - n
  let next :=
    if toFetch = 0 then none
    else if run.left - n = 0 then some { block := run.link.toNat, toFetch := toFetch, run := none }
    else some { f with toFetch := toFetch, run := some { run with left := run.left - n, word := run.word + 1 } }
  (chars, next)

/-- The run that the fetcher offers the arbiter (R105, R169). -/
def State.fetchRun (s : State) : Option Run :=
  s.nextFetch.bind fun c => (s.circuit c).send.fetch.map fun f =>
    if f.blockReady then .fetchBlock c f else .fetchText c f

/-- A count-and-link read has been made (R105). A fetch that has been stopped, or begun anew, since the read was
granted discards it (R111, R113). -/
def fetchBlockRead (c : Circuit) (f : Fetch) (s : State) : State :=
  if (s.circuit c).send.fetch = some f then
    let count := s.readRelay (offBlock f.block 1)
    let link := s.readRelay (offBlock f.block 0)
    s.updSend c fun x => { x with fetch := some (f.readBlock count link) }
  else s

/-- A text word read has been made (R105, R106). A fetch that has been stopped since the read was granted
discards it (R111, R113). -/
def fetchTextRead (c : Circuit) (f : Fetch) (s : State) : State :=
  match f.run with
  | some run =>
    if (s.circuit c).send.fetch = some f then
      let read := f.readText run (s.readRelay (offBlock f.block (2 + run.word)))
      s.updSend c fun x => { x with fifo := x.fifo ++ read.1, fetch := read.2 }
    else s
  | none => s

/-! ### Break-off (R113) -/

/-- The character in progress is completed, but its boundary report is ignored (R10, R113, R137). -/
def Transmitter.orphan : Transmitter → Transmitter
  | .idle => .idle
  | .sending char tick total _ => .sending char tick total none

/-- The active transmission is broken off (R113): the delivery returns to the head of its queue, or is
CANCELLED if it was in a cancel line for an order or held a pending cancel order. A hold pending does not make the
circuit HELD here: R136 names break-off among the ends at which it does, R147 and R156 exclude it (DESIGN
CHOICE, log 44). -/
def breakOff (c : Circuit) (s : State) : State :=
  let x := (s.circuit c).send
  let s := s.updLine c fun l => { l with transmitter := l.transmitter.orphan }
  if x.pendingCancel || decide (x.cause = some .order) then cancelActive c s
  else returnDelivery c false s

/-! ### The cancel order (R54, R55, R114, R135) -/

/-- A cancel order reaches the send controller of an ACTIVE delivery (R114, R135). In phase RECEIPT a MESSAGE_FREED
stands before the CIRCUIT_STATE of a hold pending (DESIGN CHOICE, log 47). -/
def cancelSending (c : Circuit) (s : State) : State :=
  match (s.circuit c).send.phase with
  | .heading | .dest | .text | .trailer => s.updSend c fun x => { x with pendingCancel := true }
  | .cancel => s.updSend c fun x => { x with cause := some .order }
  | .receipt => afterTransmission c (cancelActive c s)
  | .idle => s

/-- A QUEUED delivery is CANCELLED and leaves its queue (R54). -/
def cancelQueued (r : RecordIdx) (s : State) (k : SlotIdx) : State :=
  match s.delivery r k with
  | some d =>
    if d.state = .queued then
      (s.updQueue d.circuit (s.message r).rank fun q => q.leave r k).updSlot r k fun _ =>
        some { d with state := .cancelled }
    else s
  | none => s

/-- An ACTIVE delivery meets the cancel order (R54, R55). -/
def cancelIfActive (r : RecordIdx) (s : State) (k : SlotIdx) : State :=
  match s.delivery r k with
  | some d => if d.state = .active then cancelSending d.circuit s else s
  | none => s

/-- A cancel order (R54): refused as a release is, but for NO_HOLD; on a ROUTED record its QUEUED deliveries are
cancelled and its ACTIVE ones dealt with, and a divert whose queues it empties ends (R94), MESSAGE_FREED before
DIVERT_DONE, and the DIVERT_DONE reports of several circuits in the order of the record's slots (DESIGN CHOICE, log
43). -/
def cancelOrder (tag : Word) (s : State) : State :=
  let r := tagRecord tag
  match s.tagRefusal tag with
  | some reason => s.raise .office tag (.releaseRefused reason)
  | none =>
    if (s.message r).state = .routed then
      let circuits := s.queuedCircuits r
      let s := allSlots.foldl (cancelQueued r) s
      let s := allSlots.foldl (cancelIfActive r) s
      circuits.foldl (fun s c => divertEnd c s) (settle r s)
    else s

end Sys2Proof.Machine
end

