-- ==== Sys2Proof/Machine/Answers.lean ====
section
/-! DEFINITION. Received characters handed on (R7): a party dialogue's answers, receipts and poll replies
(R119, R125, R127, R130 to R132), and the expiries of its answer timer and poll timer (R120, R121). -/

namespace Sys2Proof.Machine

/-! ### Answers (R125) -/

/-- The first QUEUED delivery for a station, in the T queue, then U, R and S (R125). -/
def State.firstForStation (s : State) (c : Circuit) (t : StationIdx) : Option QueueEntry :=
  allPrecedences.findSome? fun p =>
    (s.queue c p).entries.find? fun e => decide (s.entryStation e = some t)

/-- The delivery a good answer finds to send: none unless the circuit is READY (R125, R136). -/
def State.answerDelivery (s : State) (c : Circuit) (t : StationIdx) : Option QueueEntry :=
  if (s.circuit c).control.state = .ready then s.firstForStation c t else none

/-- The second call letter has matched (R125, R126): the answer timer stops, the failure count is 0, and the
first delivery for the station is sent, or the dialogue enters QUIET. -/
def goodAnswer (c : Circuit) (t : StationIdx) (s : State) : State :=
  let s := (stationGood c t s).updDialogue c fun d => { d with answerTimer := none }
  match s.answerDelivery c t with
  | some e => (startTransmission c e s).updDialogue c fun d => { d with state := .delivering }
  | none => quietAndJudge c s

/-- The match position advances. -/
def advanceMatch (c : Circuit) (s : State) : State :=
  s.updDialogue c fun d => { d with matchPos := d.matchPos + 1 }

/-- A character of a ready answer, other than a shift character (R125). -/
def answerChar (c : Circuit) (t : StationIdx) (ch : RxChar) (s : State) : State :=
  let d := (s.circuit c).dialogue
  let x := s.station c t
  if d.matchPos = 0 then
    if ch.isTheLetter x.first then advanceMatch c s else failedAttempt c s
  else if ch.isTheLetter x.second then goodAnswer c t s
  else failedAttempt c s

/-! ### Receipts (R127) -/

/-- The second R of a receipt (R127): the timer stops, the failure count is 0, the delivery is DONE, and the
circuit controller and the scheduler follow. -/
def goodReceipt (c : Circuit) (t : StationIdx) (s : State) : State :=
  let s := (stationGood c t s).updDialogue c fun d => { d with answerTimer := none }
  afterTransmission c (deliverActive c s)

/-- A character of a receipt, other than a shift character (R127). -/
def receiptChar (c : Circuit) (t : StationIdx) (ch : RxChar) (s : State) : State :=
  if !ch.isTheLetter chR then failedAttempt c s
  else if (s.circuit c).dialogue.matchPos = 0 then advanceMatch c s
  else goodReceipt c t s

/-! ### Poll replies (R130) -/

/-- The reply N, N is complete (R130). -/
def pollNothing (c : Circuit) (t : StationIdx) (s : State) : State :=
  quietAndJudge c (stationAnswers c t s)

/-- The reply H, H, H is complete (R22, R130): the dialogue enters INBOUND and the recogniser starts a
message in letters case. R22 names LETTERS only for the start in HEADING_LINE; the discard that begins where no record
is FREE has it too: DESIGN CHOICE (log 16). -/
def pollTraffic (c : Circuit) (t : StationIdx) (s : State) : State :=
  let s := (stationAnswers c t s).updDialogue c fun d =>
    { d with state := .inbound, answerTimer := none, pollReply := none, replyOwed := none, lineEndWait := false }
  startMessage c (s.updRecogniser c fun q => { q with shift := .letters })

/-- The first character of a poll reply fixes the reply awaited (R130). -/
def fixReply (c : Circuit) (reply : PollReply) (s : State) : State :=
  s.updDialogue c fun d => { d with pollReply := some reply, matchPos := 1 }

/-- A character of a poll reply, other than a shift character (R130). -/
def pollChar (c : Circuit) (t : StationIdx) (ch : RxChar) (s : State) : State :=
  let d := (s.circuit c).dialogue
  match d.pollReply with
  | none =>
    if ch.isTheLetter chN then fixReply c .nothing s
    else if ch.isTheLetter chH then fixReply c .traffic s
    else failedAttempt c s
  | some .nothing => if ch.isTheLetter chN then pollNothing c t s else failedAttempt c s
  | some .traffic =>
    if !ch.isTheLetter chH then failedAttempt c s
    else if d.matchPos = 1 then advanceMatch c s
    else pollTraffic c t s

/-! ### A character on a party circuit (R119) -/

/-- A character read as part of an awaited answer: a shift character sets the answer case only (R125,
R127, R130). -/
def awaitedChar (c : Circuit) (value : RelayChar) (mutilated : Bool) (s : State) : State :=
  let d := (s.circuit c).dialogue
  let shift := shiftAfter d.answerShift value mutilated
  let ch : RxChar := { value := value, mutilated := mutilated, shift := shift }
  let s := s.updDialogue c fun d => { d with answerShift := shift }
  match ch.isShift, d.selected, d.state with
  | false, some t, .answerWait => answerChar c t ch s
  | false, some t, .receiptWait => receiptChar c t ch s
  | false, some t, .pollWait => pollChar c t ch s
  | _, _, _ => s

/-- A character in INBOUND goes to the recogniser; the first LF of the line-end wait ends it (R131, R132). -/
def inboundChar (c : Circuit) (value : RelayChar) (mutilated : Bool) (s : State) : State :=
  let waiting := (s.circuit c).dialogue.lineEndWait
  let s := recogniserChar c value mutilated s
  if waiting && !mutilated && value = chLF then enterReplying c s else s

/-- A character that a READY or HELD party circuit completes (R119). -/
def dialogueChar (c : Circuit) (value : RelayChar) (mutilated : Bool) (s : State) : State :=
  match (s.circuit c).dialogue.state with
  | .answerWait | .receiptWait | .pollWait => awaitedChar c value mutilated s
  | .inbound => inboundChar c value mutilated s
  | .quiet | .calling | .delivering | .pollSending | .replying | .cancelling => s

/-! ### The stop sample (R5 to R7, R11, R16) -/

/-- The completed character is handed on by the circuit state (R7). -/
def handOn (c : Circuit) (value : RelayChar) (mutilated : Bool) (s : State) : State :=
  if s.inService c then
    if s.isParty c then dialogueChar c value mutilated s else recogniserChar c value mutilated s
  else s

/-- What the stop sample does in the line unit (R5, R6, R16): the tick is taken, the receiver enters HUNTING, a
framing error is counted, and the line watch sees the character. -/
def LineUnit.stopSample (l : LineUnit) (mark : Bool) : LineUnit :=
  let l := { l.takeReceiveTick mark with receiver := .hunting }
  let l := if mark then l else { l with framingErrors := min (l.framingErrors + 1) 65535 }
  l.watchFraming (!mark)

/-- CHARACTER_RECEIVED (R5 to R7): due where the tick is the stop sample. A space sample makes the
character a mutilated BLANK. -/
def characterReceived (c : Circuit) (mark : Bool) (s : State) : State :=
  match (s.circuit c).line.receiver with
  | .assembling tick bits =>
    if 95 ≤ tick then
      let s := s.updLine c fun l => l.stopSample mark
      handOn c (if mark then bits else chBlank) (!mark) (compareSpeed true false c s)
    else s
  | _ => s

/-! ### The timers (R120, R121) -/

/-- ANSWER_TIMER_EXPIRY (R120): a failed attempt in the three waits, the end of the line-end wait in
INBOUND. -/
def answerTimerExpiry (c : Circuit) (s : State) : State :=
  let d := (s.circuit c).dialogue
  if d.answerTimer = some 0 then
    let s := s.updDialogue c fun d => { d with answerTimer := none }
    match d.state with
    | .answerWait | .receiptWait | .pollWait => failedAttempt c s
    | .inbound => if d.lineEndWait then enterReplying c s else s
    | .quiet | .calling | .delivering | .pollSending | .replying | .cancelling => s
  else s

/-- POLL_TIMER_EXPIRY (R121, R123): the expired flag is set, the timer stops, and the scheduler judges. -/
def pollTimerExpiry (c : Circuit) (s : State) : State :=
  if (s.circuit c).dialogue.pollTimer = some 0 then
    judge c (s.updDialogue c fun d => { d with pollTimer := none, pollExpired := true })
  else s

end Sys2Proof.Machine
end

