-- ==== Sys2Proof/Machine/CircuitControl.lean ====
section
/-! DEFINITION. The circuit controller (chapter 8): the circuit commands with their checks, the line check, close,
line faults and retries. -/

namespace Sys2Proof.Machine

/-! ### The line check (R144) -/

/-- The line check begins: its counts 0 and its NO_LINE reported flag clear, after a re-arm request (R17,
R144). -/
def beginCheck (c : Circuit) (s : State) : State :=
  (s.updLine c LineUnit.rearm).updControl c fun k =>
    { k with markRun := 0, checkCount := 0, noLineReported := false }

/-- NO_LINE is due (R145): the check count has reached 1000 without a pass, and the check has not reported it. -/
def Controller.noLineDue (k : Controller) : Bool :=
  k.state = .checking && k.checkCount = 1000 && !k.noLineReported && decide (k.markRun < 100)

/-- One office tick of the line check (R144). A pass or a NO_LINE that is due keeps its counts until it is
taken (log 2). -/
def Controller.checkTick (k : Controller) (mark current : Bool) : Controller :=
  if k.state = .checking && decide (k.markRun < 100) && !k.noLineDue then
    { k with
      checkCount := min (k.checkCount + 1) 1000
      markRun := if mark && current then k.markRun + 1 else 0 }
  else k

/-- The entry to READY from CHECKING loads the poll timer of a party circuit (R121). -/
def loadPollTimer (c : Circuit) (s : State) : State :=
  if s.isParty c then
    let interval := (s.circuit c).control.effective.pollInterval
    s.updDialogue c fun d => { d with pollTimer := some (10 * interval), pollExpired := false }
  else s

/-- The line check has passed (R144). -/
def passCheck (c : Circuit) (s : State) : State :=
  let s := s.updControl c fun k => { k with faults := .empty, retryCount := 0, holdPending := false }
  let s := s.updRecogniser c Recogniser.toHunt
  judge c (loadPollTimer c (setMode c .ready .checkPassed s))

/-- CHECK_PASSED (R144): due once the mark run count has reached 100. -/
def checkPassed (c : Circuit) (s : State) : State :=
  let k := (s.circuit c).control
  if k.state = .checking && k.markRun = 100 then passCheck c s else s

/-! ### Stopping a circuit (R146, R153, R154) -/

/-- A kind joins the fault set; LINE_FAULT is raised if it is new there (R152, R153). -/
def addFault (c : Circuit) (kind : FaultKind) (mode : FaultMode) (s : State) : State :=
  let known := (s.circuit c).control.faults.has kind
  let s := s.updControl c fun k => { k with faults := k.faults.add kind }
  if known then s else s.raise (.circuit c none) 0 (.lineFault kind mode)

/-- The dialogue of a party circuit goes to QUIET (R137). -/
def quietParty (c : Circuit) (s : State) : State := if s.isParty c then stopDialogue c s else s

/-- The entry to RETRY_WAIT (R154): the retry count rises, and the timer is loaded by the retry time code of
word 0. -/
def enterRetryWait (c : Circuit) (s : State) : State :=
  let ticks := retryTicksOf (s.setting c 0)
  setMode c .retryWait .lineFault (s.updControl c fun k =>
    { k with retryCount := min (k.retryCount + 1) 255, retryTimer := some ticks })

/-- A detection that stops the circuit under LATCHED or RETRY, in the order of R153. -/
def stopCircuit (c : Circuit) (kind : FaultKind) (mode : FaultMode) (s : State) : State :=
  let s := breakOff c (addFault c kind mode s)
  let s := quietParty c (stopReception c s)
  let s := s.updControl c fun k => { k with holdPending := false }
  if mode = .retry then enterRetryWait c s else setMode c .fault .lineFault s

/-- A detection by the line watch or the line check, handled by the circuit state and the fault mode in force
(R145, R152, R155). -/
def detect (c : Circuit) (kind : FaultKind) (s : State) : State :=
  let mode := faultModeOf (s.setting c 0)
  let state := (s.circuit c).control.state
  if state = .closed || state = .retryWait then s
  else if state = .checking && kind = .framing then s
  else
    match mode with
    | .ignore => s
    | .report => s.raise (.circuit c none) 0 (.lineFault kind .report)
    | .latched | .retry =>
      if state = .fault then addFault c kind mode s else stopCircuit c kind mode s

/-- NO_LINE (R145): due once the check count has reached 1000 without a pass, once in a check. -/
def noLine (c : Circuit) (s : State) : State :=
  if (s.circuit c).control.noLineDue then
    detect c .noLine (s.updControl c fun k => { k with noLineReported := true })
  else s

/-- OPEN_RECEIVE_TRIP (R14). -/
def openReceiveTrip (c : Circuit) (s : State) : State :=
  let x := s.circuit c
  if x.line.openTripDue x.control.effective.openLineTime then
    detect c .openReceive (s.updLine c fun l => { l with openDetector := .tripped, openMarkRun := 0 })
  else s

/-- SEND_LOOP_OPEN_TRIP (R15). -/
def sendLoopOpenTrip (c : Circuit) (s : State) : State :=
  if (s.circuit c).line.loopTripDue then
    detect c .sendLoopOpen (s.updLine c fun l => { l with loopDetector := .tripped })
  else s

/-- FRAMING_TRIP (R16). -/
def framingTrip (c : Circuit) (s : State) : State :=
  if (s.circuit c).line.framingTripDue then
    detect c .framing (s.updLine c fun l => { l with framingDetector := .tripped })
  else s

/-- RETRY_TIMER_EXPIRY (R154). -/
def retryTimerExpiry (c : Circuit) (s : State) : State :=
  let k := (s.circuit c).control
  if k.state = .retryWait && k.retryTimer = some 0 then
    let s := s.updControl c fun k => { k with retryTimer := none }
    setMode c .checking .retryExpiry (beginCheck c s)
  else s

/-! ### The circuit commands (R141) -/

/-- The commands of codes 1 to 7 (R141). -/
inductive CircuitCommand where
  | openLine | close | hold | resume | clearFault | divert | stationReset
  deriving DecidableEq, Repr

/-- The command of a code; codes 0 and 8 to 255 have none (R141). -/
def circuitCommandOf : Nat → Option CircuitCommand
  | 1 => some .openLine
  | 2 => some .close
  | 3 => some .hold
  | 4 => some .resume
  | 5 => some .clearFault
  | 6 => some .divert
  | 7 => some .stationReset
  | _ => none

/-- The circuit state allows the command (R141). -/
def Controller.allows (k : Controller) : CircuitCommand → Bool
  | .openLine => k.state = .closed
  | .close => k.state ≠ .closed
  | .hold => k.state = .ready && !k.holdPending
  | .resume => k.state = .held || (k.state = .ready && k.holdPending)
  | .clearFault => k.state = .fault || k.state = .retryWait
  | .divert => k.state = .closed || k.state = .held || k.state = .fault || k.state = .retryWait
  | .stationReset => k.state = .ready || k.state = .held

/-- The settings in the shadow are valid for OPEN (R142). -/
def State.settingsValid (s : State) (c : Circuit) : Bool :=
  let kind := kindOf (s.setting c 0)
  kind ≠ .unused && !speedSettingInvalid (s.setting c 1) &&
  (kind ≠ .party || allSlots.any fun t => bitSet (s.setting c (6 + t.val)) 15)

/-- The station a STATION_RESET names, if it is valid (R151). -/
def State.resetStation (s : State) (c : Circuit) (argument : BitVec 8) : Option StationIdx :=
  if h : argument.toNat < 8 then
    if s.isParty c && (s.station c ⟨argument.toNat, h⟩).present then some ⟨argument.toNat, h⟩ else none
  else none

/-- The check that first fails for a known command (R141). -/
def State.commandRefusal (s : State) (c : Circuit) (cmd : CircuitCommand) (argument : BitVec 8) :
    Option CommandRefusal :=
  let k := (s.circuit c).control
  if k.diverting then some .busy
  else if !k.allows cmd then some .wrongState
  else if cmd = .openLine && !s.settingsValid c then some .badSettings
  else if cmd = .stationReset && (s.resetStation c argument).isNone then some .badStation
  else none

/-- The effective settings as OPEN copies them from the shadow (R143). -/
def State.effectiveFrom (s : State) (c : Circuit) : Effective :=
  { kind := kindOf (s.setting c 0)
    preemption := bitSet (s.setting c 0) 2
    openLineTime := openLineTimeOf (s.setting c 2)
    answerTimeout := answerTimeoutOf (s.setting c 3)
    retryLimit := retryLimitOf (s.setting c 4)
    pollInterval := pollIntervalOf (s.setting c 4)
    silenceLimit := lowByte (s.setting c 5) }

/-- The line unit at OPEN: the speed and stop length copied, the receiver HUNTING, the framing error count 0
(R3, R6, R143). R143 copies the send speed at OPEN also while a character from before a quick CLOSE is on the line,
whose speed R8 holds to its boundary: the rest of that character runs at the new speed (DESIGN CHOICE, log 37). -/
def LineUnit.opened (l : LineUnit) (word : Word) : LineUnit :=
  { l with
    rxSpeed := (speedOf word).getD l.rxSpeed
    txSpeed := (speedOf word).getD l.txSpeed
    txStop := (stopOf word).getD l.txStop
    receiver := .hunting, framingErrors := 0, framingCount := 0 }

/-- The circuit as OPEN fills it from its settings (R143, steps 1 to 5). -/
def CircuitState.opened (x : CircuitState) (word : Nat → Word) (effective : Effective) : CircuitState :=
  { x with
    line := x.line.opened (word 1)
    recogniser := { x.recogniser.toHunt with expected := none }
    dialogue := { x.dialogue with rotation := 0 }
    stations := Vector.ofFn fun t : StationIdx => stationOf (word (6 + t.val)) (x.stations[t]).outgoing
    control := { x.control with effective := effective, faults := .empty, retryCount := 0 } }

/-- An accepted OPEN (R143). -/
def openCircuit (c : Circuit) (s : State) : State :=
  let effective := s.effectiveFrom c
  let word := s.setting c
  setMode c .checking .openCommand
    (beginCheck c (s.updCircuit c fun x => x.opened word effective))

/-- An accepted CLOSE (R146). Where its break-off cancels the last delivery of a released record, MESSAGE_FREED stands
before the RECEIVE_LOSS and the CIRCUIT_STATE (DESIGN CHOICE, log 47). -/
def closeCircuit (c : Circuit) (s : State) : State :=
  let s := stopReception c (quietParty c (breakOff c s))
  let s := s.updControl c fun k => { k with holdPending := false, retryTimer := none }
  setMode c .closed .close (s.updLine c fun l => { l with receiver := .stopped })

/-- An accepted HOLD (R147). -/
def holdCircuit (c : Circuit) (s : State) : State :=
  if (s.circuit c).send.phase = .idle then setMode c .held .hold s
  else s.updControl c fun k => { k with holdPending := true }

/-- An accepted RESUME (R148). -/
def resumeCircuit (c : Circuit) (s : State) : State :=
  if (s.circuit c).control.state = .held then judge c (setMode c .ready .resume s)
  else judge c (s.updControl c fun k => { k with holdPending := false })

/-- An accepted CLEAR_FAULT (R149). -/
def clearFault (c : Circuit) (s : State) : State :=
  let s := s.updControl c fun k => { k with retryTimer := none, faults := .empty, retryCount := 0 }
  setMode c .checking .clearFault (beginCheck c s)

/-- An accepted DIVERT (R90, R150). -/
def divertCircuit (c : Circuit) (s : State) : State :=
  divertEnd c ((s.updControl c fun k => { k with diverting := true }).updCircuit c fun x =>
    { x with divert := ⟨0, 0⟩ })

/-- An accepted STATION_RESET (R129, R151): a change of the station's state wakes a QUIET dialogue. -/
def resetStationOf (c : Circuit) (t : StationIdx) (s : State) : State :=
  let was := (s.station c t).answering
  let s := stationAnswers c t s
  if was then s else judgeParty c s

/-- An accepted command acts (R141). -/
def actOn (c : Circuit) (cmd : CircuitCommand) (argument : BitVec 8) (s : State) : State :=
  match cmd with
  | .openLine => openCircuit c s
  | .close => closeCircuit c s
  | .hold => holdCircuit c s
  | .resume => resumeCircuit c s
  | .clearFault => clearFault c s
  | .divert => divertCircuit c s
  | .stationReset => match s.resetStation c argument with
    | some t => resetStationOf c t s
    | none => s

/-- A refused command raises COMMAND_REFUSED for the circuit (R141). -/
def refuseCommand (c : Circuit) (reason : CommandRefusal) (code : BitVec 8) (s : State) : State :=
  s.raise (.circuit c none) 0 (.commandRefused reason code)

/-- A write to a command word judged as a command (R141): code 0 does nothing. -/
def circuitOrder (c : Circuit) (code argument : BitVec 8) (s : State) : State :=
  if code = 0 then s
  else
    match circuitCommandOf code.toNat with
    | none => refuseCommand c .unknown code s
    | some cmd =>
      match s.commandRefusal c cmd argument with
      | some reason => refuseCommand c reason code s
      | none => actOn c cmd argument s

end Sys2Proof.Machine
end

