-- ==== Sys2Proof/Machine/Reports.lean ====
section
/-! DEFINITION. The report writer (sections 10.1 and 10.2): the layout of a report entry (section 11.6), the
writes of the run that writes one, and the consume order. -/

namespace Sys2Proof.Machine

/-! ### The entry's four words (section 11.6, R186) -/

/-- The kind code of a report. -/
def ReportKind.code : ReportKind → Nat
  | .messageIn _ => 1
  | .messagePosted => 2
  | .postRefused _ => 3
  | .delivered _ _ => 4
  | .messageFreed => 5
  | .sequence _ => 6
  | .circuitState _ _ => 7
  | .lineFault _ _ => 8
  | .commandRefused _ _ => 9
  | .writeTrap _ => 10
  | .station _ => 11
  | .overdue => 12
  | .preempted => 13
  | .giveDone _ => 14
  | .receiveLoss _ _ => 15
  | .settingHeld => 16
  | .cancelledIn => 17
  | .releaseRefused _ => 18
  | .divertDone _ _ => 19
  | .codesIntercepted _ => 20

/-- The detail word of a report. -/
def ReportKind.detail : ReportKind → Word
  | .messageIn flags => flags
  | .messagePosted => 0
  | .postRefused outcome => place 0 outcome.code
  | .delivered slot channel => place 13 slot.val ||| place 0 channel
  | .messageFreed => 0
  | .sequence expected => place 0 expected
  | .circuitState state cause => place 8 state.code ||| place 0 cause.code
  | .lineFault kind mode => place 8 kind.code ||| place 0 mode.code
  | .commandRefused reason code => place 8 reason.code ||| place 0 code.toNat
  | .writeTrap offset => place 0 offset
  | .station answering => placeBool 0 (!answering)
  | .overdue => 0
  | .preempted => 0
  | .giveDone skipped => place 0 skipped
  | .receiveLoss _ dropped => place 0 dropped
  | .settingHeld => 1
  | .cancelledIn => 0
  | .releaseRefused reason => place 0 reason.code
  | .divertDone taken intercepted => place 8 (min taken 255) ||| place 0 (min intercepted 255)
  | .codesIntercepted positions => place 0 positions.toNat

/-- The extension bit (R186): bit 16 of a trapped offset, and TABLE_FULL in RECEIVE_LOSS. -/
def ReportKind.extension : ReportKind → Bool
  | .writeTrap offset => decide (65536 ≤ offset)
  | .receiveLoss tableFull _ => tableFull
  | .messageIn _ | .messagePosted | .postRefused _ | .delivered _ _ | .messageFreed | .sequence _
  | .circuitState _ _ | .lineFault _ _ | .commandRefused _ _ | .station _ | .overdue | .preempted
  | .giveDone _ | .settingHeld | .cancelledIn | .releaseRefused _ | .divertDone _ _
  | .codesIntercepted _ => false

/-- The office, station-present, circuit and station fields of word 0 (R186). -/
def Place.field : Place → Word
  | .office => placeBool 9 true
  | .circuit c t => placeBool 8 t.isSome ||| place 3 c.val ||| place 0 (t.getD 0).val

/-- Word 0 of a report entry. -/
def reportHead (r : Report) : Word :=
  place 11 r.kind.code ||| placeBool 10 r.kind.extension ||| r.place.field

/-- The four words of a report entry. -/
def Report.words (r : Report) : List Word := [reportHead r, r.tag, r.kind.detail, r.minute]

/-- The offset of ring entry i (R173). -/
def offEntry (i : Nat) : Nat := offRing + 4 * i

/-- The produce index after one more entry (R175). -/
def ReportWriter.nextProduce (w : ReportWriter) : Nat := (w.produce + 1) % Config.ringEntries

/-- The five writes of a report run, each an offset and a word (R175). -/
def ReportWriter.runWrites (w : ReportWriter) (r : Report) : List (Nat × Word) :=
  (List.range 4).zipWith (fun k v => (offEntry w.produce + k, v)) r.words ++
    [(offOfficeStatus, BitVec.ofNat 16 w.nextProduce)]

/-- The report writer has a run to offer (R175). -/
def ReportWriter.runReady (w : ReportWriter) : Bool :=
  !w.pending.isEmpty && decide (w.unconsumed < 1023)

/-- The grant of a report run: the head report leaves the pending list (R175). -/
def ReportWriter.granted (w : ReportWriter) : ReportWriter :=
  { w with inRun := w.pending.head?, pending := w.pending.tail }

/-- The end of a report run: the produce index advances, and the attention output is high (R175, R177). -/
def ReportWriter.written (w : ReportWriter) : ReportWriter :=
  { w with produce := w.nextProduce, inRun := none, attention := true }

/-! ### Consuming (R176, R177) -/

/-- The value is within the unconsumed span (R176). -/
def ReportWriter.withinSpan (w : ReportWriter) (v : Nat) : Bool :=
  decide (v ≤ 1023) &&
  decide ((v + Config.ringEntries - w.consume) % Config.ringEntries ≤ w.unconsumed)

/-- A consume order (R176): a value within the span becomes the consume index, and the attention output
falls if that makes the indices equal (R177). -/
def consumeReports (v : Word) (s : State) : State :=
  if s.reports.withinSpan v.toNat then
    { s with reports := { s.reports with
        consume := v.toNat
        attention := s.reports.attention && decide (v.toNat ≠ s.reports.produce) } }
  else s

end Sys2Proof.Machine
end

