-- ==== Sys2Proof/Machine/Mirror.lean ====
section
/-! DEFINITION. The mirror writer (sections 10.4 and 10.5): the directory record (section 11.7), the circuit
status (section 11.3), the office status (section 11.1), and which of them its next run writes. -/

namespace Sys2Proof.Machine

/-! ### The directory record (section 11.7) -/

/-- A block number, 0xFFFF for none. -/
def blockWord (b : Option Nat) : Word := (b.map (BitVec.ofNat 16)).getD 0xFFFF

/-- Word 1 of a directory record. -/
def Message.stateWord (m : Message) : Word :=
  place 8 m.mutilated ||| placeBool 7 m.hold ||| placeBool 6 m.precedence.isSome |||
  place 4 ((m.precedence.map Precedence.code).getD 0) ||| place 0 m.state.code

/-- Word 3 of a directory record. -/
def Message.originWord (m : Message) : Word :=
  match m.origin with
  | none => 0
  | some .posted => placeBool 15 true
  | some (.circuit c t) => place 3 c.val ||| place 0 (t.getD 0).val

/-- A destination position of a directory record. -/
def destWord : Option Dest → Word
  | none => 0
  | some .badCode => 0xFFFF
  | some (.code x) => codeWord x

/-- A delivery slot of a directory record. -/
def slotWord : Option Delivery → Word
  | none => 0
  | some d => place 12 d.attempts ||| place 8 d.station.val ||| place 3 d.circuit.val ||| place 0 d.state.code

/-- The code set of a delivery slot. -/
def slotCodes (d : Option Delivery) : Nat := ((d.map Delivery.codes).getD 0).toNat

/-- The 32 words of a directory record (section 11.7). -/
def State.directoryWords (s : State) (r : RecordIdx) : List Word :=
  let m := s.message r
  [s.tag r, m.stateWord, m.flagWord, m.originWord, place 0 (m.channel.getD 0),
    (m.originCode.map codeWord).getD 0, place 0 m.textLength, blockWord m.head, blockWord m.tail,
    place 0 m.blockCount, m.receiptMinute.getD 0,
    place 8 m.interceptSet.toNat ||| place 0 m.localSet.toNat] ++
  (List.range 8).map (fun i => destWord m.destinations[i]?) ++
  allSlots.map (fun k => slotWord m.slots[k]) ++
  [place 8 (slotCodes m.slots[1]) ||| place 0 (slotCodes m.slots[0]),
    place 8 (slotCodes m.slots[3]) ||| place 0 (slotCodes m.slots[2]),
    place 8 (slotCodes m.slots[5]) ||| place 0 (slotCodes m.slots[4]),
    place 8 (slotCodes m.slots[7]) ||| place 0 (slotCodes m.slots[6])]

/-- The offset of a directory record. -/
def offRecord (r : RecordIdx) : Nat := offDirectory + 32 * r.val

/-! ### The circuit status (section 11.3) -/

/-- Word 17 of a circuit record. -/
def CircuitState.stateWord (x : CircuitState) : Word :=
  place 12 x.dialogue.lastStation.val ||| place 8 x.dialogue.state.code |||
  placeBool 4 x.control.diverting ||| placeBool 3 x.control.holdPending ||| place 0 x.control.state.code

/-- Words 18 and 19 of a circuit record: both 0 with no active delivery. -/
def State.activeWords (s : State) (c : Circuit) : List Word :=
  match (s.circuit c).send.active with
  | none => [0, 0]
  | some (r, k) =>
    [s.tag r,
      placeBool 15 true ||| place 4 ((s.delivery r k).map Delivery.attempts |>.getD 0) ||| place 0 k.val]

/-- Words 26 and 27 of a circuit record: on a party circuit the numbers of the station in word 17. -/
def State.channelWords (s : State) (c : Circuit) : List Word :=
  let x := s.circuit c
  if s.isParty c then
    let t := s.station c x.dialogue.lastStation
    [place 0 t.outgoing, place 0 (t.expected.getD 0)]
  else [place 0 x.outgoing, place 0 (x.recogniser.expected.getD 0)]

/-- The station answering mask (R117). -/
def State.answeringMask (s : State) (c : Circuit) : Word :=
  (allSlots.filter fun t => (s.station c t).present && (s.station c t).answering).foldl
    (fun w t => w ||| placeBool t.val true) 0

/-- The 15 status words, 17 to 31, of a circuit record (section 11.3). -/
def State.circuitWords (s : State) (c : Circuit) : List Word :=
  let x := s.circuit c
  [x.stateWord] ++ s.activeWords c ++
  [shownCount x.send.remaining] ++ allPrecedences.map (fun p => shownCount (s.queue c p).count) ++
  [place 8 x.control.retryCount ||| x.control.faults.word] ++ s.channelWords c ++
  [s.answeringMask c, place 0 x.line.framingErrors, 0, 0]

/-! ### The office status (section 11.1, R181) -/

/-- The 16 words of the office status. -/
def State.officeWords (s : State) : List Word :=
  [place 0 s.reports.produce, place 0 s.reports.lost, place 0 s.pool.count, place 0 s.freeCount, s.minute,
    placeBool 8 s.walk.isSome ||| place 0 s.postOutcome.code, placeBool 0 s.pool.give.isSome] ++
  List.replicate 9 0

/-! ### The next run (R179, R180) -/

/-- The lowest-numbered dirty record. -/
def State.dirtyRecord (s : State) : Option RecordIdx := allRecords.find? fun r => s.messageDirty[r]

/-- The lowest-numbered dirty circuit. -/
def State.dirtyCircuit (s : State) : Option Circuit := allCircuits.find? fun c => s.circuitDirty[c]

/-- The member that the mirror writer's next run writes (R180). -/
def State.mirrorMember (s : State) : Option MirrorMember :=
  match s.dirtyRecord, s.dirtyCircuit with
  | some r, _ => some (.record r)
  | none, some c => some (.circuit c)
  | none, none => if s.officeDirty then some .office else none

/-- The words of a member, from the values standing (R180). -/
def State.mirrorWords (s : State) : MirrorMember → List Word
  | .record r => s.directoryWords r
  | .circuit c => s.circuitWords c
  | .office => s.officeWords

/-- Where a member's run writes (R180). -/
def MirrorMember.offset : MirrorMember → Nat
  | .record r => offRecord r
  | .circuit c => offCircuit c 17
  | .office => offOfficeStatus

/-- The run that the mirror writer offers the arbiter (R180). -/
def State.mirrorRun (s : State) : Option Run := s.mirrorMember.map fun m => .mirror m (s.mirrorWords m)

/-- A member leaves its dirty set (R180). -/
def State.mirrorLeave (s : State) : MirrorMember → State
  | .record r => { s with messageDirty := s.messageDirty.set r false }
  | .circuit c => { s with circuitDirty := s.circuitDirty.set c false }
  | .office => { s with officeDirty := false }

end Sys2Proof.Machine
end

