-- ==== Sys2Proof/Machine/Arbiter.lean ====
section
/-! DEFINITION. The store arbiter (section 9.6): urgency, which requester the next grant goes to, the runs that the
part's blocks offer, the grant of a run, its cycles, and its end. -/

namespace Sys2Proof.Machine

/-! ### Runs (R167) -/

/-- The requester whose run it is (R167). -/
def Run.requester : Run → Requester
  | .passage => .passage
  | .blockWrite _ => .blockWriter
  | .fetchBlock _ _ | .fetchText _ _ => .fetcher
  | .take | .give | .walkRead | .walkEnd | .returnWrite _ _ => .poolUnit
  | .report => .reportWriter
  | .mirror _ _ => .mirrorWriter

/-- Words written one after another from an offset. -/
def wordsFrom (offset : Nat) : List Word → List (Nat × Word)
  | [] => []
  | w :: ws => (offset, w) :: wordsFrom (offset + 1) ws

/-- The store writes of a run, in order, by the state standing (R167). A passage write is made at its grant. -/
def State.runWrites (s : State) : Run → List (Nat × Word)
  | .passage | .fetchBlock _ _ | .fetchText _ _ | .take | .walkRead => []
  | .blockWrite w => [(w.offset, w.value)]
  | .give =>
    match s.pool.give with
    | some g => s.pool.giveWrites g.position
    | none => []
  | .walkEnd =>
    match s.walk with
    | some w => [(offBlock w.block 0, 0xFFFF)]
    | none => []
  | .returnWrite t h => [(offBlock t 0, BitVec.ofNat 16 h)]
  | .report =>
    match s.reports.inRun with
    | some r => s.reports.runWrites r
    | none => []
  | .mirror m words => wordsFrom m.offset words

/-- The M-port cycles of a run (R167). -/
def State.runCycles (s : State) : Run → Nat
  | .passage | .fetchText _ _ | .take => 1
  | .fetchBlock _ _ | .walkRead => 2
  | .blockWrite w => (s.runWrites (.blockWrite w)).length
  | .give => (s.runWrites .give).length
  | .walkEnd => (s.runWrites .walkEnd).length
  | .returnWrite t h => (s.runWrites (.returnWrite t h)).length
  | .report => (s.runWrites .report).length
  | .mirror m words => (s.runWrites (.mirror m words)).length

/-- The cycles of the granted run still to be made (R167). -/
def State.cyclesLeft (s : State) : Nat :=
  match s.arbiter with
  | .free => 0
  | .granted run made => s.runCycles run - made

/-- Store writes at relay area offsets, in order. -/
def makeWrites (writes : List (Nat × Word)) (s : State) : State :=
  writes.foldl (fun s w => s.writeRelay w.1 w.2) s

/-- The store write of the cycle on the M-port, the one after those made (R167): none where that cycle reads. -/
def portWrite (run : Run) (made : Nat) (s : State) : State :=
  makeWrites (((s.runWrites run).drop made).take 1) s

/-! ### The choice (R168, R169) -/

/-- A grant can be made: the arbiter is FREE, or a passage cycle holds the M-port, which the next event that needs
the M-port finds completed (DESIGN CHOICE, log 45). -/
def Arbiter.open : Arbiter → Bool
  | .free | .granted .passage _ => true
  | .granted _ _ => false

/-- The circuit's head message stands in the block writer's waiting list (R41). -/
def State.headWaits (s : State) (c : Circuit) : Bool :=
  match (s.circuit c).textFifo.head? with
  | some (.char _ r) => decide (r ∈ s.writer.waiting)
  | _ => false

/-- Block work is urgent (R168): a text FIFO holds 12 characters or more and is not passed over for want of a
block. -/
def State.urgent (s : State) : Bool :=
  allCircuits.any fun c =>
    decide (Config.urgentCharacters ≤ fifoCharacters (s.circuit c).textFifo) && !s.headWaits c

/-- The mirror writer has something to write (R180). -/
def State.mirrorReady (s : State) : Bool :=
  s.messageDirty.toList.any id || s.circuitDirty.toList.any id || s.officeDirty

/-- A requester has a run ready; `cycle` says that a processor cycle is at the P-port (R167, R169). -/
def State.hasRun (s : State) (cycle : Bool) : Requester → Bool
  | .passage => cycle || s.pendingClear.toList.any id
  | .blockWriter => !s.writer.writes.isEmpty
  | .fetcher => s.nextFetch.isSome
  | .poolUnit => s.poolRun.isSome
  | .reportWriter => s.reports.runReady
  | .mirrorWriter => s.mirrorReady

/-- The usual order (R168). -/
def usualOrder : List Requester :=
  [.passage, .blockWriter, .fetcher, .poolUnit, .reportWriter, .mirrorWriter]

/-- The requester that a grant made now goes to (R168): none while a run holds the M-port. -/
def State.grantee (s : State) (cycle : Bool) : Option Requester :=
  if !s.arbiter.open then none
  else if s.urgent && s.hasRun cycle .blockWriter then some .blockWriter
  else if s.urgent && decide (s.poolRun = some .take) then some .poolUnit
  else usualOrder.find? (s.hasRun cycle)

/-- The run of the part's own that a requester offers (R169): passage offers none. -/
def State.runOf (s : State) : Requester → Option Run
  | .passage => none
  | .blockWriter => s.writer.writes.head?.map .blockWrite
  | .fetcher => s.fetchRun
  | .poolUnit => s.poolRun
  | .reportWriter => some .report
  | .mirrorWriter => s.mirrorRun

/-- The run of the part's own that a grant made now starts (R168): none where it goes to passage. -/
def State.nextRun (s : State) : Option Run := (s.grantee s.waiting.isSome).bind s.runOf

/-! ### A run from its grant to its end (R68, R167) -/

/-- A run is granted: the fetcher has then served the circuit (R169), the head report leaves the pending list (R175),
and a member leaves its dirty set (R180). -/
def grantRun (run : Run) (s : State) : State :=
  let s := { s with arbiter := .granted run 0 }
  match run with
  | .fetchBlock c _ | .fetchText c _ => { s with fetchLast := c }
  | .report => { s with reports := s.reports.granted }
  | .mirror m _ => s.mirrorLeave m
  | .passage | .blockWrite _ | .take | .give | .walkRead | .walkEnd | .returnWrite _ _ => s

/-- The state with the run that the arbiter grants now, if there is one. -/
def State.withGrant (s : State) : State :=
  match s.nextRun with
  | some run => grantRun run s
  | none => s

/-- The last cycle of a run completes: its remaining writes have been made, and the arbiter is FREE (R167). -/
def endRun (run : Run) (made : Nat) (s : State) : State :=
  { makeWrites ((s.runWrites run).drop made) s with arbiter := .free }

/-- The event at the end of a run: the run in progress at the M-port, or with none in progress the one that the
arbiter grants now (log 10), ends and has the effect given. Where that run is no run of the event's kind the event is
not due and changes nothing. -/
def onRun (effect : Run → Option (State → State)) (s : State) : State :=
  match s.withGrant.arbiter with
  | .free => s
  | .granted run made =>
    match effect run with
    | some f => f (endRun run made s.withGrant)
    | none => s

end Sys2Proof.Machine
end

