-- ==== Sys2Proof/Machine/Runs.lean ====
section
/-! DEFINITION. The events at the ends of the runs of the M-port (R68, R167): the block writer's, the fetcher's and
the pool unit's, the report writer's start and end, and the mirror writer's run. -/

namespace Sys2Proof.Machine

/-- BLOCK_WRITE_DONE (R39). -/
def blockWriteDone (s : State) : State :=
  onRun (fun
    | .blockWrite w => some (blockWritten w)
    | _ => none) s

/-- FETCH_BLOCK_READ_DONE (R105, R111). -/
def fetchBlockReadDone (s : State) : State :=
  onRun (fun
    | .fetchBlock c f => some (fetchBlockRead c f)
    | _ => none) s

/-- FETCH_TEXT_READ_DONE (R105, R106, R111). -/
def fetchTextReadDone (s : State) : State :=
  onRun (fun
    | .fetchText c f => some (fetchTextRead c f)
    | _ => none) s

/-- The take's read of the pool head's link has been made (R72). -/
def takeRead (s : State) : State :=
  match s.pool.take, s.pool.head with
  | some r, some b => completeTake r b s
  | _, _ => s

/-- TAKE_COMPLETE (R72). -/
def takeComplete (s : State) : State :=
  onRun (fun
    | .take => some takeRead
    | _ => none) s

/-- A return's write has been made (R73). -/
def returnWritten (tail head : Nat) (s : State) : State :=
  { s with pool := { s.pool with returns := s.pool.returns.erase (tail, head) } }

/-- RETURN_WRITE_DONE (R73). -/
def returnWriteDone (s : State) : State :=
  onRun (fun
    | .returnWrite t h => some (returnWritten t h)
    | _ => none) s

/-- What follows a run of the walk in progress. -/
def onWalk (effect : Walk → State → State) (s : State) : State :=
  match s.walk with
  | some w => effect w s
  | none => s

/-- WALK_READ_DONE (R61). -/
def walkReadDone (s : State) : State :=
  onRun (fun
    | .walkRead => some (onWalk walkRead)
    | _ => none) s

/-- WALK_END_WRITE_DONE (R62). -/
def walkEndWriteDone (s : State) : State :=
  onRun (fun
    | .walkEnd => some (onWalk walkEnd)
    | _ => none) s

/-- What follows a step of the build in progress. -/
def onGive (effect : Give → State → State) (s : State) : State :=
  match s.pool.give with
  | some g => effect g s
  | none => s

/-- No run of the pool unit is at the M-port. -/
def State.poolUnitIdle (s : State) : Bool :=
  match s.arbiter with
  | .free => true
  | .granted run _ => decide (run.requester ≠ .poolUnit)

/-- GIVE_STEP (R70): a skipped block needs no M-port, only the pool unit's turn. -/
def giveStep (s : State) : State :=
  if s.poolUnitIdle && decide (s.poolWork = some .giveSkip) then onGive giveSkip s
  else onRun (fun
    | .give => some (onGive giveJoin)
    | _ => none) s

/-- REPORT_WRITE_START (R175): the grant, at which the head report leaves the pending list. -/
def reportWriteStart (s : State) : State := if s.nextRun = some .report then grantRun .report s else s

/-- REPORT_WRITE_DONE (R175, R177): the last write of the report run in progress completes. -/
def reportWriteDone (s : State) : State :=
  match s.arbiter with
  | .granted .report made =>
    let s := endRun .report made s
    { s with reports := s.reports.written }
  | _ => s

/-- MIRROR_RUN (R180): the run of the mirror writer in progress, or the one granted now, is made to its end. -/
def mirrorRun (s : State) : State :=
  onRun (fun
    | .mirror _ _ => some id
    | _ => none) s

/-! ### Cycles between the events (R167) -/

/-- The next cycle of the run in progress, if it is not its last; the last one belongs to the event at the run's
end. -/
def runCycle (run : Run) (made : Nat) (s : State) : State :=
  if made + 1 < s.runCycles run then
    { portWrite run made s with arbiter := .granted run (made + 1) }
  else s

end Sys2Proof.Machine
end

