-- ==== Sys2Proof/Machine/StorePath.lean ====
section
/-! DEFINITION. The store path unit (sections 9.1 to 9.5): the class of each relay area offset, the judging of a
processor write at its grant, the P-port, the clearing of command words, and the arbiter's own cycle. -/

namespace Sys2Proof.Machine

/-! ### Classes of offsets (R159) -/

/-- The block an order word's order goes to (R159). -/
inductive OrderWord where
  | post | give | release | cancel | consume
  | command (c : Circuit)
  deriving DecidableEq, Repr

/-- The five classes of relay area words (R159). -/
inductive WriteClass where
  | shadowed
  | order (word : OrderWord)
  | partWritten
  | block (b : Nat)
  | plain
  deriving DecidableEq, Repr

/-- The class of a word of the office area and post record, offsets below 0x00400 (R159). -/
def officeClass (offset : Nat) : WriteClass :=
  if offset < 0x10 then .shadowed
  else if offset < 0x20 then .partWritten
  else if offset = offPostTrigger then .order .post
  else if offset = offGiveCount then .order .give
  else if offset = offRelease then .order .release
  else if offset = offCancel then .order .cancel
  else if offset = offConsume then .order .consume
  else if offset < 0x32 then .shadowed
  else .plain

/-- The circuit whose record an offset from 0x00400 to 0x007FF lies in. -/
def recordCircuit (offset : Nat) : Circuit := Fin.ofNat 32 ((offset - 0x400) / 32)

/-- The word of that record. -/
def recordWord (offset : Nat) : Nat := (offset - 0x400) % 32

/-- The class of a word of a circuit record (R159). -/
def circuitClass (offset : Nat) : WriteClass :=
  if recordWord offset < 16 then .shadowed
  else if recordWord offset = 16 then .order (.command (recordCircuit offset))
  else .partWritten

/-- The class of a relay area offset (R159). -/
def writeClass (offset : Nat) : WriteClass :=
  if offset < 0x400 then officeClass offset
  else if offset < 0x800 then circuitClass offset
  else if offset < 0xD48 then .shadowed
  else if offset < 0x1000 then .plain
  else if offset < 0x3000 then .partWritten
  else if offset < 0x4000 then .plain
  else .block ((offset - 0x4000) / 32)

/-! ### A processor write at its grant (R160, R163, R165, R166) -/

/-- The address lies in the relay area (R158). -/
def State.inRelayArea (s : State) (a : Address) : Bool :=
  decide (a.toNat / Config.relayWords = s.strap.val)

/-- The offset of an address in the relay area (R158). -/
def relayOffset (a : Address) : Nat := a.toNat % Config.relayWords

/-- A suppressed write (R165 to R167): the arbiter is FREE again in the grant event. -/
def trapWrite (offset : Nat) (s : State) : State :=
  { s with arbiter := .free }.raise .office 0 (.writeTrap offset)

/-- A write that passes (R157, R167): the store word holds the value from the grant on, and passage holds the
M-port. -/
def passWrite (a : Address) (v : Word) (s : State) : State :=
  { s.writeStore a v with arbiter := .granted .passage 0 }

/-- A write to word 1 of a circuit's settings reaches its line unit (R11, R12, R160). -/
def speedSettingWritten (c : Circuit) (s : State) : State :=
  compareAtRest c (s.updLine c fun l => { l with settingHeld := false })

/-- The two shadowed words whose writes are events for another block (R160). -/
def shadowEvent (offset : Nat) (s : State) : State :=
  if offset = offReserve then judgeSuspension s
  else if 0x400 ≤ offset && offset < 0x800 && recordWord offset = 1 then
    speedSettingWritten (recordCircuit offset) s
  else s

/-- A write to a command word: its circuit joins the pending clear set, and the command is judged (R163,
R164). -/
def commandWritten (c : Circuit) (v : Word) (s : State) : State :=
  circuitOrder c (v.extractLsb' 0 8) (v.extractLsb' 8 8)
    { s with pendingClear := s.pendingClear.set c true }

/-- An order goes to the block that owns it (R163). -/
def takeOrder (word : OrderWord) (v : Word) (s : State) : State :=
  match word with
  | .post => postOrder s
  | .give => Sys2Proof.Machine.giveOrder v s
  | .release => Sys2Proof.Machine.releaseOrder v s
  | .cancel => Sys2Proof.Machine.cancelOrder v s
  | .consume => consumeReports v s
  | .command c => commandWritten c v s

/-- A processor write judged at its grant (R157, R159). -/
def judgeWrite (a : Address) (v : Word) (s : State) : State :=
  if s.inRelayArea a then
    match writeClass (relayOffset a) with
    | .plain => passWrite a v s
    | .partWritten => trapWrite (relayOffset a) s
    | .block b => if s.owner b = .processor then passWrite a v s else trapWrite (relayOffset a) s
    | .shadowed => shadowEvent (relayOffset a) ((passWrite a v s).setShadow (relayOffset a) v)
    | .order word => takeOrder word v (passWrite a v s)
  else passWrite a v s

/-! ### The P-port (R157, R168, R171) -/

/-- A processor cycle at its grant (R157, R171): a write is judged; a read is not, and the P-port is handed what the
store holds. -/
def grantCycle (cycle : PortCycle) (s : State) : State :=
  match cycle with
  | .read a => { s with readData := some (s.processorRead a), arbiter := .granted .passage 0 }
  | .write a v => judgeWrite a v s

/-- The processor cycle that waits at the P-port is granted if the arbiter's grant goes to passage. -/
def grantWaiting (s : State) : State :=
  match s.waiting with
  | none => s
  | some cycle =>
    if s.grantee true = some .passage then grantCycle cycle { s with waiting := none } else s

/-- A processor cycle at the P-port (R157): it is made if it is granted, else it waits there. The P-port carries one
cycle at a time: while one still waits, no other begins (log 8). -/
def presentCycle (cycle : PortCycle) (s : State) : State :=
  let s := grantWaiting s
  match s.waiting with
  | some _ => s
  | none =>
    if s.grantee true = some .passage then grantCycle cycle s else { s with waiting := some cycle }

/-- A processor write at the P-port. -/
def presentWrite (a : Address) (v : Word) (s : State) : State := presentCycle (.write a v) s

/-- A processor read at the P-port (R157, R171). No command presents one: the opcode table has no row for a read
(log 31). -/
def presentRead (a : Address) (s : State) : State := presentCycle (.read a) s

/-- A processor write at a relay area offset. -/
def presentAt (offset : Nat) (v : Word) (s : State) : State := presentWrite (s.relayAddress offset) v s

/-- The processor write of a command and its argument to a circuit's command word (section 11.3). -/
def presentCommand (c : Circuit) (code argument : BitVec 8) (s : State) : State :=
  presentAt (offCommand c) (argument ++ code) s

/-! ### Clearing command words (R164, R169) -/

/-- The circuit whose clearing write passage offers (R169). -/
def State.nextClear (s : State) : Option Circuit := allCircuits.find? fun c => s.pendingClear[c]

/-- COMMAND_CLEAR_WRITE (R164): granted when no processor cycle waits and the grant goes to passage. -/
def commandClearWrite (s : State) : State :=
  match s.waiting, s.nextClear with
  | none, some c =>
    if s.grantee false = some .passage then
      { passWrite (s.relayAddress (offCommand c)) 0 s with pendingClear := s.pendingClear.set c false }
    else s
  | _, _ => s

/-! ### The arbiter between the commands (R167, R168) -/

/-- The arbiter, FREE, makes its grant. The grant of a report run and that of a clearing write are commands of their
own and wait for them (log 10). -/
def makeGrant (s : State) : State :=
  match s.nextRun with
  | none => grantWaiting s
  | some .report => s
  | some run => grantRun run s

/-- The M-port in one cycle while no command waits: a passage cycle ends, a grant is made, or the run in progress
makes its next cycle. -/
def portCycle (s : State) : State :=
  match s.arbiter with
  | .free => makeGrant s
  | .granted .passage _ => makeGrant { s with arbiter := .free }
  | .granted run made => runCycle run made s

end Sys2Proof.Machine
end

