-- ==== Sys2Proof/Machine/Reset.lean ====
section
/-! DEFINITION. Power-on, relay reset (R158, R162, R170 and the reset sentences of every chapter), and the
office tick (R1, R13, R144, R182). -/

namespace Sys2Proof.Machine

/-! ### The abandoned run (R170) -/

/-- A reset abandons the run in progress (R170): the cycle on the M-port finishes on the store, and the rest is not
made. That cycle is the one after those that the arbiter holds as made (log 5). A passage cycle was made at its
grant. -/
def abandonRun (s : State) : State :=
  match s.arbiter with
  | .free | .granted .passage _ => s
  | .granted run made => portWrite run made s

/-! ### Resets -/

/-- A circuit after a reset: every field at its reset value, its two input pins as last seen. -/
def CircuitState.afterReset (x : CircuitState) : CircuitState :=
  { CircuitState.reset with
    line := { LineUnit.reset with receiveIn := x.line.receiveIn, loopIn := x.line.loopIn } }

/-- The message table after a relay reset that found the straps unchanged (R45): a record that was not FREE
becomes FREE under its next generation. -/
def tableAfterReset (table : Vector Message 128) : Vector Message 128 :=
  Vector.ofFn fun r : RecordIdx =>
    if (table[r]).state = .free then Message.free (table[r]).generation
    else Message.free (nextGeneration r (table[r]).generation)

/-- What every reset sets, with what only some resets keep given: the shadows, the message table and the
pending clear set (R45, R162, R164). The store, the pins, the processor cycle that waits and the data handed to the
P-port stay (R170), and every member is dirty (R179). -/
def resetWith (strap : Fin 8) (shadow : Sparse (Option Word)) (table : Vector Message 128)
    (pendingClear : Vector Bool 32) (s : State) : State :=
  let s := abandonRun s
  let circuits : Vector CircuitState 32 := Vector.ofFn fun c : Circuit => (s.circuits[c]).afterReset
  let fresh : State :=
    { State.reset with
      pending := s.pending, circuits := circuits, messages := table
      strap := strap, strapBefore := strap, waiting := s.waiting, readData := s.readData
      pendingClear := pendingClear, shadow := shadow, store := s.store }
  { fresh with pool := { Pool.reset with suspension := fresh.suspendedNow } }

/-- POWER_ON (R162). -/
def powerOn (strap : Fin 8) (s : State) : State :=
  resetWith strap [] Message.powerOnTable (Vector.replicate 32 false) s

/-- RELAY_RESET (R162): as power-on if the straps have changed since the reset before. -/
def relayReset (strap : Fin 8) (s : State) : State :=
  if strap = s.strapBefore then resetWith strap s.shadow (tableAfterReset s.messages) s.pendingClear s
  else powerOn strap s

/-! ### The office tick (R1) -/

/-- A timer at an office tick: one tick fewer; one that has run out waits for its expiry to be taken. -/
def timerTick (t : Option Nat) : Option Nat := t.map fun n => n - 1

/-- A dialogue's timers at an office tick (R120, R121): the poll timer counts while READY or HELD. -/
def Dialogue.officeTick (d : Dialogue) (inService : Bool) : Dialogue :=
  { d with
    answerTimer := timerTick d.answerTimer
    pollTimer := if inService then timerTick d.pollTimer else d.pollTimer }

/-- A circuit at an office tick, with the levels on its two input pins (R13, R36, R120, R121, R144, R154). -/
def CircuitState.officeTick (x : CircuitState) (mark current : Bool) : CircuitState :=
  { x with
    line := x.line.officeTick x.control.effective.openLineTime mark current
    recogniser := { x.recogniser with silence := timerTick x.recogniser.silence }
    dialogue := x.dialogue.officeTick (x.control.state = .ready || x.control.state = .held)
    control := { x.control.checkTick mark current with retryTimer := timerTick x.control.retryTimer } }

/-- An office tick reaches the timers of every circuit, with the levels on its two input pins, and the tick count
stands at n after it. One that the divider had not yet produced is taken as the cycle on which the divider passes
to 0 (log 1). -/
def timersTick (receive loop : Circuit → Bool) (n : Nat) (s : State) : State :=
  { s with
    divider := if s.officeTicksDue = 0 then 0 else s.divider
    officeTicksDue := s.officeTicksDue - 1
    tickCount := n
    circuits := Vector.ofFn fun c : Circuit => (s.circuits[c]).officeTick (receive c) (loop c) }

/-- OFFICE_TICK (R1, R13, R182): the tick goes to every timer; the one that takes the tick count from 5999 back to 0
is the minute tick. -/
def officeTick (receive loop : Circuit → Bool) (s : State) : State :=
  if s.tickCount + 1 < Config.ticksPerMinute then timersTick receive loop (s.tickCount + 1) s
  else minuteTick (timersTick receive loop 0 s)

/-- MINUTE_TICK (R182): the office tick that takes the tick count from 5999 back to 0, with the levels last seen on
the input pins. With any other tick count it is not due (log 30). -/
def minuteTickEvent (s : State) : State :=
  if s.tickCount + 1 < Config.ticksPerMinute then s
  else officeTick (fun c => (s.circuit c).line.receiveIn) (fun c => (s.circuit c).line.loopIn) s

/-- One reference clock cycle while no command waits (R1, R2): the clocks advance, and the M-port is given a cycle
(R167, R168; log 1). -/
def idleCycle (s : State) : State := portCycle (clockCycle s)

end Sys2Proof.Machine
end

