-- ==== Sys2Proof/Machine/ResetTimeCommands.lean ====
section
/-! DEFINITION. The meanings of the resets and of the ticks that reach the whole part. -/

namespace Sys2Proof.Machine

/-- POWER_ON (R158, R162): every block at its reset values. -/
def execPowerOn (strap : Fin 8) (s : State) : Host.Outcome State Fault Refusal :=
  .next (powerOn strap s)

/-- RELAY_RESET (R158, R162): shadows, generations and the pending clear set by the strap comparison. -/
def execRelayReset (strap : Fin 8) (s : State) : Host.Outcome State Fault Refusal :=
  .next (relayReset strap s)

/-- OFFICE_TICK (R1, R13, R182): every timer, the line watch, the line check, and the minute tick. -/
def execOfficeTick (receive : BitVec 32) (loop : BitVec 32) (s : State) : Host.Outcome State Fault Refusal :=
  .next (officeTick (fun c => receive.getLsbD c.val) (fun c => loop.getLsbD c.val) s)

/-- MINUTE_TICK (R182, R58): the office tick at which the minute counter advances and the overdue check is made. -/
def execMinuteTick (s : State) : Host.Outcome State Fault Refusal := .next (minuteTickEvent s)

end Sys2Proof.Machine
end

