-- ==== Sys2Proof/Machine/LineCommands.lean ====
section
/-! DEFINITION. The meanings of the events of a circuit's line: sample ticks, characters, the line watch's trips and
the silence timer. -/

namespace Sys2Proof.Machine

/-- CHARACTER_RECEIVED (R5 to R7). -/
def execCharacterReceived (c : Circuit) (mark : Bool) (s : State) : Host.Outcome State Fault Refusal :=
  .next (characterReceived c mark s)

/-- CHARACTER_BOUNDARY (R9). -/
def execCharacterBoundary (c : Circuit) (s : State) : Host.Outcome State Fault Refusal :=
  .next (characterBoundary c s)

/-- OPEN_RECEIVE_TRIP (R14, R152). -/
def execOpenReceiveTrip (c : Circuit) (s : State) : Host.Outcome State Fault Refusal :=
  .next (openReceiveTrip c s)

/-- OPEN_RECEIVE_REARM (R14). -/
def execOpenReceiveRearm (c : Circuit) (s : State) : Host.Outcome State Fault Refusal :=
  .next (openReceiveRearm c s)

/-- SEND_LOOP_OPEN_TRIP (R15, R152). -/
def execSendLoopOpenTrip (c : Circuit) (s : State) : Host.Outcome State Fault Refusal :=
  .next (sendLoopOpenTrip c s)

/-- FRAMING_TRIP (R16, R152). -/
def execFramingTrip (c : Circuit) (s : State) : Host.Outcome State Fault Refusal :=
  .next (framingTrip c s)

/-- SILENCE_EXPIRY (R36). -/
def execSilenceExpiry (c : Circuit) (s : State) : Host.Outcome State Fault Refusal :=
  .next (silenceExpiry c s)

/-- RECEIVE_SAMPLE_TICK (R4, R5). -/
def execReceiveSampleTick (c : Circuit) (mark : Bool) (s : State) : Host.Outcome State Fault Refusal :=
  .next (receiveSampleTick c mark s)

/-- SEND_TICK (R8, R9, R110, R114). -/
def execSendTick (c : Circuit) (s : State) : Host.Outcome State Fault Refusal := .next (sendTick c s)

end Sys2Proof.Machine
end

