-- ==== Sys2Proof/Machine/BlockCommands.lean ====
section
/-! DEFINITION. The meanings of the events of the block writer, the block pool unit, the post walk and the text
fetcher. -/

namespace Sys2Proof.Machine

/-- TEXT_CHARACTER_TAKEN (R39, R40). -/
def execTextCharacterTaken (s : State) : Host.Outcome State Fault Refusal :=
  .next (textCharacterTaken s)

/-- BLOCK_WRITE_DONE (R39, R40, R42). -/
def execBlockWriteDone (s : State) : Host.Outcome State Fault Refusal := .next (blockWriteDone s)

/-- TAKE_COMPLETE (R40, R72). -/
def execTakeComplete (s : State) : Host.Outcome State Fault Refusal := .next (takeComplete s)

/-- ENDING_REACHED (R42). -/
def execEndingReached (s : State) : Host.Outcome State Fault Refusal := .next (endingReached s)

/-- RETURN_WRITE_DONE (R73). -/
def execReturnWriteDone (s : State) : Host.Outcome State Fault Refusal := .next (returnWriteDone s)

/-- WALK_READ_DONE (R61). -/
def execWalkReadDone (s : State) : Host.Outcome State Fault Refusal := .next (walkReadDone s)

/-- WALK_END_WRITE_DONE (R62). -/
def execWalkEndWriteDone (s : State) : Host.Outcome State Fault Refusal := .next (walkEndWriteDone s)

/-- GIVE_STEP (R70, R71). -/
def execGiveStep (s : State) : Host.Outcome State Fault Refusal := .next (giveStep s)

/-- FETCH_BLOCK_READ_DONE (R105). -/
def execFetchBlockReadDone (s : State) : Host.Outcome State Fault Refusal :=
  .next (fetchBlockReadDone s)

/-- FETCH_TEXT_READ_DONE (R105, R106). -/
def execFetchTextReadDone (s : State) : Host.Outcome State Fault Refusal := .next (fetchTextReadDone s)

end Sys2Proof.Machine
end

