-- ==== Sys2Proof/Machine/OrderCommands.lean ====
section
/-! DEFINITION. The meanings of the processor writes: orders, settings with events of their own, and every other
write. -/

namespace Sys2Proof.Machine

/-- POST_TRIGGER (R59, R60). -/
def execPostTrigger (value : Word) (s : State) : Host.Outcome State Fault Refusal :=
  .next (presentAt offPostTrigger value s)

/-- RELEASE_ORDER (R53). -/
def execReleaseOrder (tag : Word) (s : State) : Host.Outcome State Fault Refusal :=
  .next (presentAt offRelease tag s)

/-- CANCEL_ORDER (R54, R55). -/
def execCancelOrder (tag : Word) (s : State) : Host.Outcome State Fault Refusal :=
  .next (presentAt offCancel tag s)

/-- GIVE_ORDER (R69). -/
def execGiveOrder (count : Word) (s : State) : Host.Outcome State Fault Refusal :=
  .next (presentAt offGiveCount count s)

/-- POOL_RESERVE_WRITE (R76, R160). -/
def execPoolReserveWrite (value : Word) (s : State) : Host.Outcome State Fault Refusal :=
  .next (presentAt offReserve value s)

/-- SPEED_SETTING_WRITE (R11, R12, R160). -/
def execSpeedSettingWrite (c : Circuit) (value : Word) (s : State) : Host.Outcome State Fault Refusal :=
  .next (presentAt (offCircuit c 1) value s)

/-- PROCESSOR_WRITE (R157, R159). -/
def execProcessorWrite (address : Address) (value : Word) (s : State) : Host.Outcome State Fault Refusal :=
  .next (presentWrite address value s)

/-- CONSUME_ORDER (R176). -/
def execConsumeOrder (value : Word) (s : State) : Host.Outcome State Fault Refusal :=
  .next (presentAt offConsume value s)

end Sys2Proof.Machine
end

