-- ==== Sys2Proof/Machine/StoreCommands.lean ====
section
/-! DEFINITION. The meanings of the report writer's and mirror writer's runs and of the clearing write. -/

namespace Sys2Proof.Machine

/-- REPORT_WRITE_START (R175). -/
def execReportWriteStart (s : State) : Host.Outcome State Fault Refusal := .next (reportWriteStart s)

/-- REPORT_WRITE_DONE (R175, R177). -/
def execReportWriteDone (s : State) : Host.Outcome State Fault Refusal := .next (reportWriteDone s)

/-- MIRROR_RUN (R180). -/
def execMirrorRun (s : State) : Host.Outcome State Fault Refusal := .next (mirrorRun s)

/-- COMMAND_CLEAR_WRITE (R164). -/
def execCommandClearWrite (s : State) : Host.Outcome State Fault Refusal := .next (commandClearWrite s)

end Sys2Proof.Machine
end

