-- ==== Sys2Proof/Machine/CircuitCommands.lean ====
section
/-! DEFINITION. The meanings of the circuit commands, each a processor write to a command word (R141, R163). -/

namespace Sys2Proof.Machine

/-- NO_COMMAND (R141): code 0. -/
def execNoCommand (c : Circuit) (argument : BitVec 8) (s : State) : Host.Outcome State Fault Refusal :=
  .next (presentCommand c 0 argument s)

/-- COMMAND_UNKNOWN (R141): a code above 7. -/
def execCommandUnknown (c : Circuit) (code : BitVec 8) (argument : BitVec 8) (s : State) : Host.Outcome State Fault Refusal :=
  .next (presentCommand c code argument s)

/-- OPEN_COMMAND (R142, R143): code 1. -/
def execOpenCommand (c : Circuit) (argument : BitVec 8) (s : State) : Host.Outcome State Fault Refusal :=
  .next (presentCommand c 1 argument s)

/-- CLOSE_COMMAND (R146): code 2. -/
def execCloseCommand (c : Circuit) (argument : BitVec 8) (s : State) : Host.Outcome State Fault Refusal :=
  .next (presentCommand c 2 argument s)

/-- HOLD_COMMAND (R147): code 3. -/
def execHoldCommand (c : Circuit) (argument : BitVec 8) (s : State) : Host.Outcome State Fault Refusal :=
  .next (presentCommand c 3 argument s)

/-- RESUME_COMMAND (R148): code 4. -/
def execResumeCommand (c : Circuit) (argument : BitVec 8) (s : State) : Host.Outcome State Fault Refusal :=
  .next (presentCommand c 4 argument s)

/-- CLEAR_FAULT_COMMAND (R149): code 5. -/
def execClearFaultCommand (c : Circuit) (argument : BitVec 8) (s : State) : Host.Outcome State Fault Refusal :=
  .next (presentCommand c 5 argument s)

/-- DIVERT_COMMAND (R150): code 6. -/
def execDivertCommand (c : Circuit) (argument : BitVec 8) (s : State) : Host.Outcome State Fault Refusal :=
  .next (presentCommand c 6 argument s)

/-- STATION_RESET_COMMAND (R151): code 7, the station in the high byte. -/
def execStationResetCommand (c : Circuit) (station : BitVec 8) (s : State) : Host.Outcome State Fault Refusal :=
  .next (presentCommand c 7 station s)

end Sys2Proof.Machine
end

