-- ==== Sys2Proof/Machine/ControlEvents.lean ====
section
/-! DEFINITION. The meanings of the circuit controller's, the dialogue's and the route unit's own events. -/

namespace Sys2Proof.Machine

/-- CHECK_PASSED (R144). -/
def execCheckPassed (c : Circuit) (s : State) : Host.Outcome State Fault Refusal :=
  .next (checkPassed c s)

/-- NO_LINE (R145). -/
def execNoLine (c : Circuit) (s : State) : Host.Outcome State Fault Refusal := .next (noLine c s)

/-- RETRY_TIMER_EXPIRY (R154). -/
def execRetryTimerExpiry (c : Circuit) (s : State) : Host.Outcome State Fault Refusal :=
  .next (retryTimerExpiry c s)

/-- ANSWER_TIMER_EXPIRY (R120). -/
def execAnswerTimerExpiry (c : Circuit) (s : State) : Host.Outcome State Fault Refusal :=
  .next (answerTimerExpiry c s)

/-- POLL_TIMER_EXPIRY (R121). -/
def execPollTimerExpiry (c : Circuit) (s : State) : Host.Outcome State Fault Refusal :=
  .next (pollTimerExpiry c s)

/-- DIVERT_STEP (R90). -/
def execDivertStep (c : Circuit) (s : State) : Host.Outcome State Fault Refusal :=
  .next (divertStep c s)

end Sys2Proof.Machine
end

