-- ==== Sys2Proof/Machine/Dispatch.lean ====
section
/-! DEFINITION. The dispatch: one arm per command, in the opcode table's order. -/

namespace Sys2Proof.Machine

def exec (i : Instr) (s : State) : Host.Outcome State Fault Refusal :=
  match i with
  | .powerOn strap => Sys2Proof.Machine.execPowerOn strap s
  | .relayReset strap => Sys2Proof.Machine.execRelayReset strap s
  | .officeTick receive loop => Sys2Proof.Machine.execOfficeTick receive loop s
  | .minuteTick => Sys2Proof.Machine.execMinuteTick s
  | .characterReceived c mark => Sys2Proof.Machine.execCharacterReceived c mark s
  | .characterBoundary c => Sys2Proof.Machine.execCharacterBoundary c s
  | .openReceiveTrip c => Sys2Proof.Machine.execOpenReceiveTrip c s
  | .openReceiveRearm c => Sys2Proof.Machine.execOpenReceiveRearm c s
  | .sendLoopOpenTrip c => Sys2Proof.Machine.execSendLoopOpenTrip c s
  | .framingTrip c => Sys2Proof.Machine.execFramingTrip c s
  | .silenceExpiry c => Sys2Proof.Machine.execSilenceExpiry c s
  | .textCharacterTaken => Sys2Proof.Machine.execTextCharacterTaken s
  | .blockWriteDone => Sys2Proof.Machine.execBlockWriteDone s
  | .takeComplete => Sys2Proof.Machine.execTakeComplete s
  | .endingReached => Sys2Proof.Machine.execEndingReached s
  | .returnWriteDone => Sys2Proof.Machine.execReturnWriteDone s
  | .postTrigger value => Sys2Proof.Machine.execPostTrigger value s
  | .walkReadDone => Sys2Proof.Machine.execWalkReadDone s
  | .walkEndWriteDone => Sys2Proof.Machine.execWalkEndWriteDone s
  | .releaseOrder tag => Sys2Proof.Machine.execReleaseOrder tag s
  | .cancelOrder tag => Sys2Proof.Machine.execCancelOrder tag s
  | .giveOrder count => Sys2Proof.Machine.execGiveOrder count s
  | .giveStep => Sys2Proof.Machine.execGiveStep s
  | .poolReserveWrite value => Sys2Proof.Machine.execPoolReserveWrite value s
  | .speedSettingWrite c value => Sys2Proof.Machine.execSpeedSettingWrite c value s
  | .processorWrite address value => Sys2Proof.Machine.execProcessorWrite address value s
  | .consumeOrder value => Sys2Proof.Machine.execConsumeOrder value s
  | .reportWriteStart => Sys2Proof.Machine.execReportWriteStart s
  | .reportWriteDone => Sys2Proof.Machine.execReportWriteDone s
  | .mirrorRun => Sys2Proof.Machine.execMirrorRun s
  | .commandClearWrite => Sys2Proof.Machine.execCommandClearWrite s
  | .noCommand c argument => Sys2Proof.Machine.execNoCommand c argument s
  | .commandUnknown c code argument => Sys2Proof.Machine.execCommandUnknown c code argument s
  | .openCommand c argument => Sys2Proof.Machine.execOpenCommand c argument s
  | .closeCommand c argument => Sys2Proof.Machine.execCloseCommand c argument s
  | .holdCommand c argument => Sys2Proof.Machine.execHoldCommand c argument s
  | .resumeCommand c argument => Sys2Proof.Machine.execResumeCommand c argument s
  | .clearFaultCommand c argument => Sys2Proof.Machine.execClearFaultCommand c argument s
  | .divertCommand c argument => Sys2Proof.Machine.execDivertCommand c argument s
  | .stationResetCommand c station => Sys2Proof.Machine.execStationResetCommand c station s
  | .checkPassed c => Sys2Proof.Machine.execCheckPassed c s
  | .noLine c => Sys2Proof.Machine.execNoLine c s
  | .retryTimerExpiry c => Sys2Proof.Machine.execRetryTimerExpiry c s
  | .fetchBlockReadDone => Sys2Proof.Machine.execFetchBlockReadDone s
  | .fetchTextReadDone => Sys2Proof.Machine.execFetchTextReadDone s
  | .answerTimerExpiry c => Sys2Proof.Machine.execAnswerTimerExpiry c s
  | .pollTimerExpiry c => Sys2Proof.Machine.execPollTimerExpiry c s
  | .divertStep c => Sys2Proof.Machine.execDivertStep c s
  | .receiveSampleTick c mark => Sys2Proof.Machine.execReceiveSampleTick c mark s
  | .sendTick c => Sys2Proof.Machine.execSendTick c s

end Sys2Proof.Machine
end

