-- ==== Sys2Proof/Safety.lean ====
section
/-! DEFINITION. What a safe state of the part is, in the terms the statements use: the laws of the report writer
(R173, R175, R177), the canonical forms of the store and the maps (log 3), the law that binds a circuit's state to its receiver
and its hold (R3, chapter 8), and when a processor write is granted at once (R157). -/

namespace Sys2Proof.Machine

/-- The report writer's laws: its indices, list and count lie in their ranges (R173), and the attention output
is high exactly while the indices differ (R177). -/
abbrev ReportWriter.lawful (w : ReportWriter) : Prop :=
  w.produce < 1024 ∧ w.consume < 1024 ∧ w.pending.length ≤ 32 ∧ w.lost ≤ 65535 ∧
  w.attention = decide (w.consume ≠ w.produce)

/-- A report run holds the M-port. -/
def Arbiter.reporting : Arbiter → Bool
  | .granted .report _ => true
  | .free | .granted _ _ => false

/-- The report writer is lawful, a report is in a run exactly while a report run holds the M-port, and such a run
found room in the ring (R173, R175, R177). -/
abbrev State.reportsLawful (s : State) : Prop :=
  s.reports.lawful ∧
  s.reports.inRun.isSome = s.arbiter.reporting ∧
  (s.arbiter.reporting = true → s.reports.unconsumed < 1023)

/-- The office message store, the shadows and the ownership table are in their canonical forms. -/
abbrev State.mapsLawful (s : State) : Prop :=
  Memory.wf s.store = true ∧ Sparse.wf none s.shadow = true ∧ Sparse.wf Owner.processor s.owners = true

/-- A circuit's receiver is STOPPED exactly while it is CLOSED (R3), and hold pending is carried only in READY
(chapter 8). -/
abbrev CircuitState.lawful (x : CircuitState) : Prop :=
  (x.control.state = .closed ↔ x.line.receiver = .stopped) ∧
  (x.control.holdPending = true → x.control.state = .ready)

/-- Every circuit is lawful. -/
abbrev State.circuitsLawful (s : State) : Prop := ∀ c : Circuit, (s.circuit c).lawful

/-- A processor cycle presented now is granted at once (R157, R168): none waits before it, and the grant
goes to passage. -/
abbrev State.granted (s : State) : Prop := s.waiting = none ∧ s.grantee true = some .passage

/-- A run of the M-port is due with all its cycles still to be made: it is in progress, or it is the run granted
now (R167, R168; log 10). -/
def State.runDue (s : State) (run : Run) : Prop := s.arbiter = .granted run 0 ∨ s.nextRun = some run

/-- A reading run is due, at whatever cycle: it is in progress, or it is the run granted now (R167, R168; log 10). -/
def State.readDue (s : State) (run : Run) : Prop :=
  (∃ made, s.arbiter = .granted run made) ∨ s.nextRun = some run

/-- Every circuit but one, and its dirty mark, is as it was. -/
abbrev State.othersKept (s t : State) (c : Circuit) : Prop :=
  ∀ d : Circuit, d ≠ c → t.circuit d = s.circuit d ∧ t.circuitDirty[d] = s.circuitDirty[d]

/-- The reports that one event hands over, in their order (R174). -/
def State.raiseAll (s : State) (reports : List (Place × Word × ReportKind)) : State :=
  reports.foldl (fun s e => s.raise e.1 e.2.1 e.2.2) s

/-- The step from s to t changes circuit c only, and hands over the reports listed. -/
abbrev State.onlyCircuit (s t : State) (c : Circuit) (reports : List (Place × Word × ReportKind)) : Prop :=
  t = { s with
    circuits := t.circuits, circuitDirty := t.circuitDirty
    reports := (s.raiseAll reports).reports, officeDirty := (s.raiseAll reports).officeDirty } ∧
  s.othersKept t c

/-- The step from s to t writes one store word and no other. -/
abbrev State.wroteWord (s t : State) (a : Address) (v : Word) : Prop :=
  t.readStore a = v ∧ ∀ b : Address, b ≠ a → t.readStore b = s.readStore b

/-- A taken write to circuit c's command word, up to the command's own effect on the circuit: the word is
written, passage holding the M-port (R167), the circuit joins the pending clear set (R163, R164), and the reports
listed are handed over. -/
abbrev State.tookCommand (s t : State) (c : Circuit) (code argument : BitVec 8)
    (reports : List (Place × Word × ReportKind)) : Prop :=
  t = { s with
    store := t.store, arbiter := .granted .passage 0, pendingClear := s.pendingClear.set c true
    circuits := t.circuits, circuitDirty := t.circuitDirty
    reports := (s.raiseAll reports).reports, officeDirty := (s.raiseAll reports).officeDirty } ∧
  s.othersKept t c ∧ s.wroteWord t (s.relayAddress (offCommand c)) (argument ++ code)

/-- The codes of a valid word 1 copied in the directions that are at rest: by the receiver if it is HUNTING, by the
transmitter if it is IDLE (R11). -/
def LineUnit.compared (l : LineUnit) (w : Word) : LineUnit :=
  { l with
    rxSpeed := if l.receiver = .hunting then (speedOf w).getD l.rxSpeed else l.rxSpeed
    txSpeed := if l.transmitter = .idle then (speedOf w).getD l.txSpeed else l.txSpeed
    txStop := if l.transmitter = .idle then (stopOf w).getD l.txStop else l.txStop }

/-- The suspension condition is the one that the pool and the free record count imply (R76). -/
abbrev State.suspensionLawful (s : State) : Prop := s.pool.suspension = s.suspendedNow

end Sys2Proof.Machine
end

