-- ==== Sys2Proof/Certificates/Slice0/Obligations.lean ====
section
/-! DEFINITION. The statements about the GR-332 that the provers settle. Where a statement's next state is
written as a record update of the state before, every field not named is unchanged. A schedule decision (`judge`),
the ending of a message (`settle`) and the suspension condition (`judgeSuspension`) have statements of their own,
and the statements of the commands that lead to them name them. So they name the minute tick (`minuteTick`), a grant
(`grantRun`), one code of a divert step (`divertCode`), a party's select and poll (`selectStation`, `pollStation`) and
what follows a transmission's end (`transmissionEnded`), each told in full in one statement, and, where an effect is
told in another statement in its own setting, the model's function for it (`takeReceived`, `routeRecord`,
`startTransmission`, `poolChanged`, which is a waiting take's request and then `judgeSuspension`). -/

open Sys2Proof Sys2Proof.Machine

/-! ### The machine -/

/-- A step takes the command at the front of the queue and is that command's effect on the state with the
queue's rest. The queue is the model's own (log 7). -/
def Obligations.StepTakesFrontCommand : Prop :=
  ∀ (c : Instr) (rest : List Instr) (s : State), s.pending = c :: rest →
    step s = exec c { s with pending := rest }

/-- With no command waiting, a step is one reference clock cycle: the divider and both
phase accumulators of every line unit advance, each carry a tick that falls due (R1, R2), and the M-port is given one
cycle. A run in progress makes its next write, but for its last cycle, which belongs to the event at the run's end.
Where the arbiter is FREE, or a passage cycle ends, a run of the part's own that comes next is granted; a processor
cycle whose turn it is does what it does when it is presented then, a read handing the P-port the store word and never
a shadow (R157, R167, R168, R171).
A processor cycle whose grant does not come at once waits at the P-port and changes nothing else.
A grant goes to the block writer, or to a take, while block work is urgent, and else to the first requester in the
usual order that has a run ready (R168); at its grant a fetch counts as served, a report leaves the pending list and a
member leaves its dirty set (R169, R175, R180).
That a cycle passes exactly on an empty queue, where the model places the grants, that a report's grant and a clearing
write wait for their own commands, and that no command presents a read are the model's choices (logs 1, 8, 10, 31,
45). -/
def Obligations.ClockCyclesRunAndGrantTheWaitingWrite : Prop :=
  (
  ∀ s : State, s.pending = [] →
    (let u := clockCycle s
     (u = { s with divider := u.divider, officeTicksDue := u.officeTicksDue, circuits := u.circuits } ∧
      (s.divider < 24575 → u.divider = s.divider + 1 ∧ u.officeTicksDue = s.officeTicksDue) ∧
      (s.divider = 24575 → u.divider = 0 ∧ u.officeTicksDue = s.officeTicksDue + 1) ∧
      ∀ c : Circuit, u.circuit c =
        { s.circuit c with line :=
          { (s.circuit c).line with
            rxAccumulator := (s.circuit c).line.rxAccumulator +
              BitVec.ofNat 24 (speedIncrement (s.circuit c).line.rxSpeed)
            txAccumulator := (s.circuit c).line.txAccumulator +
              BitVec.ofNat 24 (speedIncrement (s.circuit c).line.txSpeed)
            rxTicksDue := (s.circuit c).line.rxTicksDue +
              ((s.circuit c).line.rxAccumulator.toNat + speedIncrement (s.circuit c).line.rxSpeed) / 2 ^ 24
            txTicksDue := (s.circuit c).line.txTicksDue +
              ((s.circuit c).line.txAccumulator.toNat + speedIncrement (s.circuit c).line.txSpeed) / 2 ^ 24 } }) ∧
     (∀ run made, s.arbiter = .granted run made → run ≠ .passage →
       (made + 1 < u.runCycles run → step s = .next { u with
         store := (makeWrites (((u.runWrites run).drop made).take 1) u).store, arbiter := .granted run (made + 1) }) ∧
       (u.runCycles run ≤ made + 1 → step s = .next u)) ∧
     (s.arbiter.open = true →
       (∀ run, u.nextRun = some run → run ≠ .report → step s = .next (grantRun run u)) ∧
       (u.nextRun = some .report → step s = .next { u with arbiter := .free }) ∧
       (u.nextRun = none → s.waiting = none → step s = .next { u with arbiter := .free }) ∧
       (∀ a v, s.waiting = some (.write a v) → u.grantee true = some .passage →
         step s = exec (.processorWrite a v) { u with waiting := none, arbiter := .free }) ∧
       (∀ a, s.waiting = some (.read a) → u.grantee true = some .passage →
         step s = .next { u with
           waiting := none, arbiter := .granted .passage 0, readData := some (s.readStore a) })))) ∧
  (
  ∀ (a : Address) (v : Word) (s : State), s.waiting = none →
    (s.grantee true ≠ some .passage →
      exec (.processorWrite a v) s = .next { s with waiting := some (.write a v) } ∧
      presentRead a s = { s with waiting := some (.read a) }) ∧
    (s.grantee true = some .passage →
      presentRead a s = { s with arbiter := .granted .passage 0, readData := some (s.readStore a) })) ∧
  (
  ∀ (cycle : Bool) (s : State),
    (let urgent : Prop := ∃ c : Circuit, 12 ≤ fifoCharacters (s.circuit c).textFifo ∧
       ∀ v r rest, (s.circuit c).textFifo = .char v r :: rest → r ∉ s.writer.waiting
     let order : List Requester :=
       [.passage, .blockWriter, .fetcher, .poolUnit, .reportWriter, .mirrorWriter]
     (s.arbiter.open = false → s.grantee cycle = none) ∧
     (s.arbiter.open = true →
       (urgent → s.writer.writes ≠ [] → s.grantee cycle = some .blockWriter) ∧
       (urgent → s.writer.writes = [] → s.pool.take ≠ none → s.grantee cycle = some .poolUnit) ∧
       (¬ urgent ∨ (s.writer.writes = [] ∧ s.pool.take = none) →
         ∀ before q rest, order = before ++ q :: rest →
           (s.grantee cycle = some q ↔
             s.hasRun cycle q = true ∧ ∀ q' ∈ before, s.hasRun cycle q' = false))))) ∧
  (
  ∀ (run : Run) (s : State),
    (let held : State := { s with arbiter := .granted run 0 }
     (∀ c f, run = .fetchBlock c f ∨ run = .fetchText c f → grantRun run s = { held with fetchLast := c }) ∧
     (∀ report rest, run = .report → s.reports.pending = report :: rest →
       grantRun run s =
         { held with reports := { s.reports with inRun := some report, pending := rest } }) ∧
     (∀ r words, run = .mirror (.record r) words →
       grantRun run s = { held with messageDirty := s.messageDirty.set r false }) ∧
     (∀ c words, run = .mirror (.circuit c) words →
       grantRun run s = { held with circuitDirty := s.circuitDirty.set c false }) ∧
     (∀ words, run = .mirror .office words → grantRun run s = { held with officeDirty := false }) ∧
     (run.requester = .passage ∨ run.requester = .blockWriter ∨ run.requester = .poolUnit →
       grantRun run s = held)))

/-- Every command completes, from every state, and leaves the commands that wait as they are. That a command that is
not due completes by changing nothing is the model's choice (log 2), and so is the queue in which commands wait
(log 7). -/
def Obligations.EveryCommandCompletesAndKeepsTheQueue : Prop :=
  ∀ (c : Instr) (s : State), ∃ t, exec c s = .next t ∧ t.pending = s.pending

/-- The state at reset meets the three invariants and the suspension law: the receivers STOPPED on circuits that are
all CLOSED (R3, R139), the arbiter FREE with no report in a run (R170), the indices equal and attention low
(R173, R177), no shadow and no owner but PROCESSOR (R162, R65), and no suspension with a reserve of 0 and every
record FREE (R76). The canonical form of the maps and the empty store are the model's own (log 3). -/
def Obligations.ResetMeetsInvariants : Prop :=
  State.reset.reportsLawful ∧ State.reset.mapsLawful ∧ State.reset.circuitsLawful ∧
  State.reset.suspensionLawful

/-- Every step keeps the report writer's laws: its indices below 1024, at most 32 reports pending, the lost count
at most 65535, the attention output high exactly while the indices differ (R173, R177), and a report run only where
the ring had room (R175). That a report stands in a run exactly while a report run holds the M-port is the model's
choice (logs 10 and 11), though the M-port has six requesters (R167). -/
def Obligations.StepKeepsReportsLawful : Prop :=
  ∀ s t : State, s.reportsLawful → step s = .next t → t.reportsLawful

/-- Every step keeps the office message store, the shadows and the ownership table in their canonical forms, with
every store address below 2^20 (log 3). -/
def Obligations.StepKeepsMapsLawful : Prop :=
  ∀ s t : State, s.mapsLawful → step s = .next t → t.mapsLawful

/-- Every step keeps, on every circuit, the receiver STOPPED exactly while the circuit is CLOSED, and hold
pending carried only in READY (R3, R144, R147, R153). -/
def Obligations.StepKeepsCircuitsLawful : Prop :=
  ∀ s t : State, s.circuitsLawful → step s = .next t → t.circuitsLawful

/-- No change of a shown field escapes the mirror writer (R140, R179): where the report writer's laws hold, after any
command but MIRROR_RUN, a circuit
or a record whose shown fields differ from before is in its dirty set, the office mark is set if a word of the
office status other than the produce index differs, and no mark that stood has been lost. A queued-character
count is compared in full, above 65535 too, which is the model's choice (log 27).
It rests on the model's reading in log 27. -/
def Obligations.EveryShownChangeIsMarkedDirty : Prop :=
  ∀ (i : Instr) (s t : State), s.reportsLawful → i ≠ .mirrorRun → exec i s = .next t →
    (∀ c : Circuit, s.circuitDirty[c] = true ∨ (t.circuit c).shown ≠ (s.circuit c).shown →
      t.circuitDirty[c] = true) ∧
    (∀ r : RecordIdx, s.messageDirty[r] = true ∨ (t.message r).shown ≠ (s.message r).shown →
      t.messageDirty[r] = true) ∧
    (s.officeDirty = true ∨ t.officeWords.drop 1 ≠ s.officeWords.drop 1 → t.officeDirty = true)

/-! ### Resets and the office timer -/

/-- POWER_ON returns every block to its reset values under the strap value sampled (R158, R162). The two
input pins of a circuit, a processor cycle at the P-port, the data last handed there and the store stay. Of a run in
progress the cycle on the M-port, the one after those made (log 5), finishes and the rest is not made; with none in
progress the store is as it was (R167, R170).
RELAY_RESET with the straps as they were does the same to the run, but keeps the shadows with their written marks and
the pending clear set,
and frees every record that was not FREE under its next generation; with the straps changed it is a power-on
(R45, R158, R162, R164). The suspension condition is judged anew (R76).
It rests on the model's reading in logs 4, 5, 12 and 13, and the reset values that the manual does not give are the
model's choice (log 9). -/
def Obligations.ResetsReturnThePartToItsResetValues : Prop :=
  (
  ∀ (strap : Fin 8) (s : State), ∃ t, exec (.powerOn strap) s = .next t ∧
    t = { State.reset with
      pending := s.pending, circuits := t.circuits, strap := strap, strapBefore := strap
      waiting := s.waiting, readData := s.readData, store := t.store } ∧
    (∀ c : Circuit, t.circuit c =
      { CircuitState.reset with line :=
        { LineUnit.reset with
          receiveIn := (s.circuit c).line.receiveIn, loopIn := (s.circuit c).line.loopIn } }) ∧
    (s.arbiter.open = true → t.store = s.store) ∧
    (∀ run made, s.arbiter = .granted run made → run ≠ .passage →
      t.store = (makeWrites (((s.runWrites run).drop made).take 1) s).store)) ∧
  (
  ∀ (strap : Fin 8) (s : State),
    (strap ≠ s.strapBefore → exec (.relayReset strap) s = exec (.powerOn strap) s) ∧
    (strap = s.strapBefore → ∃ t, exec (.relayReset strap) s = .next t ∧
      t = { State.reset with
        pending := s.pending, circuits := t.circuits, messages := t.messages, strap := strap
        strapBefore := strap, waiting := s.waiting, readData := s.readData, pendingClear := s.pendingClear
        shadow := s.shadow, store := t.store
        pool := { Pool.reset with suspension := decide (0 < poolReserveOf (s.shadowAt offReserve)) } } ∧
      (∀ c : Circuit, t.circuit c =
        { CircuitState.reset with line :=
          { LineUnit.reset with
            receiveIn := (s.circuit c).line.receiveIn, loopIn := (s.circuit c).line.loopIn } }) ∧
      (∀ r : RecordIdx, t.message r = Message.free
        (if (s.message r).state = .free then (s.message r).generation
         else nextGeneration r (s.message r).generation)) ∧
      (s.arbiter.open = true → t.store = s.store) ∧
      (∀ run made, s.arbiter = .granted run made → run ≠ .passage →
        t.store = (makeWrites (((s.runWrites run).drop made).take 1) s).store)))

/-- OFFICE_TICK reaches every timer once: the silence, answer and retry timers of every circuit count down, a poll
timer only while its circuit is READY or HELD, and the tick count goes on; from 5999 it falls to 0, and that office
tick is the minute tick (R1, R36, R120, R121, R154, R182). Nothing but what the line watch and the line check count
changes besides.
The line watch and the line check at an office tick (R13 to R15, R144). The open-receive count rises at space and
falls to 0 at mark; the send-loop count rises while the output is mark without current, falls to 0 with
current, and stands while the output is space; current re-arms a tripped send-loop detector; a line check adds
one to its check count and to its mark run, or ends the run. A count that has reached its limit stands until its
event is taken, the open-receive and send-loop counts of an armed detector and the mark run of a line check alike,
and a line check whose NO_LINE is due stands still (the model's choice, log 2). A detector that is tripped counts on
up to its limit.
It rests on the model's reading in logs 1, 2 and 30. -/
def Obligations.OfficeTickRunsTimersWatchAndCheck : Prop :=
  (
  ∀ (receive loop : BitVec 32) (s : State), ∃ u,
    exec (.officeTick receive loop) s = .next (if s.tickCount < 5999 then u else minuteTick u) ∧
    u = { s with
      divider := if s.officeTicksDue = 0 then 0 else s.divider
      officeTicksDue := s.officeTicksDue - 1
      tickCount := if s.tickCount < 5999 then s.tickCount + 1 else 0
      circuits := u.circuits } ∧
    ∀ c : Circuit,
      u.circuit c =
        { s.circuit c with
          line := { (s.circuit c).line with
            openCount := (u.circuit c).line.openCount, loopCount := (u.circuit c).line.loopCount
            loopDetector := (u.circuit c).line.loopDetector
            receiveIn := receive.getLsbD c.val, loopIn := loop.getLsbD c.val }
          recogniser := { (s.circuit c).recogniser with
            silence := (s.circuit c).recogniser.silence.map (· - 1) }
          dialogue := { (s.circuit c).dialogue with
            answerTimer := (s.circuit c).dialogue.answerTimer.map (· - 1)
            pollTimer := if s.inService c then (s.circuit c).dialogue.pollTimer.map (· - 1)
              else (s.circuit c).dialogue.pollTimer }
          control := { (s.circuit c).control with
            markRun := (u.circuit c).control.markRun, checkCount := (u.circuit c).control.checkCount
            retryTimer := (s.circuit c).control.retryTimer.map (· - 1) } }) ∧
  (
  ∀ (receive loop : BitVec 32) (c : Circuit) (s t : State), exec (.officeTick receive loop) s = .next t →
    ((s.circuit c).line.openCount < (s.circuit c).control.effective.openLineTime →
      (t.circuit c).line.openCount =
        if receive.getLsbD c.val then 0 else (s.circuit c).line.openCount + 1) ∧
    ((s.circuit c).control.effective.openLineTime ≤ (s.circuit c).line.openCount →
      (t.circuit c).line.openCount =
        if (s.circuit c).line.openDetector = .armed then (s.circuit c).line.openCount
        else if receive.getLsbD c.val then 0 else (s.circuit c).control.effective.openLineTime) ∧
    ((s.circuit c).line.loopDetector = .armed → (s.circuit c).line.loopCount < 10 →
      (t.circuit c).line.loopDetector = .armed ∧
      (t.circuit c).line.loopCount =
        if (s.circuit c).line.transmitter.mark then
          (if loop.getLsbD c.val then 0 else (s.circuit c).line.loopCount + 1)
        else (s.circuit c).line.loopCount) ∧
    ((s.circuit c).line.loopDetector = .armed → 10 ≤ (s.circuit c).line.loopCount →
      (t.circuit c).line.loopDetector = .armed ∧
      (t.circuit c).line.loopCount = (s.circuit c).line.loopCount) ∧
    ((s.circuit c).line.loopDetector = .tripped → loop.getLsbD c.val = true →
      (t.circuit c).line.loopDetector = .armed ∧ (t.circuit c).line.loopCount = 0) ∧
    ((s.circuit c).line.loopDetector = .tripped → loop.getLsbD c.val = false →
      (t.circuit c).line.loopDetector = .tripped ∧
      (t.circuit c).line.loopCount =
        if (s.circuit c).line.transmitter.mark then min ((s.circuit c).line.loopCount + 1) 10
        else (s.circuit c).line.loopCount) ∧
    ((s.circuit c).control.state = .checking → (s.circuit c).control.markRun < 100 →
      ((s.circuit c).control.checkCount < 1000 ∨ (s.circuit c).control.noLineReported = true →
        (t.circuit c).control.checkCount = min ((s.circuit c).control.checkCount + 1) 1000 ∧
        (t.circuit c).control.markRun =
          if receive.getLsbD c.val && loop.getLsbD c.val then (s.circuit c).control.markRun + 1 else 0) ∧
      ((s.circuit c).control.checkCount = 1000 → (s.circuit c).control.noLineReported = false →
        (t.circuit c).control.checkCount = 1000 ∧
        (t.circuit c).control.markRun = (s.circuit c).control.markRun)) ∧
    ((s.circuit c).control.state = .checking → 100 ≤ (s.circuit c).control.markRun →
      (t.circuit c).control.checkCount = (s.circuit c).control.checkCount ∧
      (t.circuit c).control.markRun = (s.circuit c).control.markRun) ∧
    ((s.circuit c).control.state ≠ .checking →
      (t.circuit c).control.checkCount = (s.circuit c).control.checkCount ∧
      (t.circuit c).control.markRun = (s.circuit c).control.markRun))

/-- The minute tick: the minute counter rises by one, wrapping, and every
ROUTED record whose age has reached a limit that is not 0, and that is not yet reported, is reported OVERDUE
once (R58, R182). The ascending order of the reports is given by no rule: it is the model's choice (log 36).
MINUTE_TICK is the office tick that takes the tick count from 5999 back to 0 and with it the minute tick, the input
pins at the levels last seen; at any other tick count it is not due and changes nothing (the model's choices, logs 2
and 30). -/
def Obligations.MinuteTickReportsOverdueMessages : Prop :=
  (
  ∀ s : State,
    (let t := minuteTick s
     let now : State := { s with minute := s.minute + 1, officeDirty := true }
     let overdue : RecordIdx → Bool := fun r =>
       decide ((s.message r).state = .routed) && decide (0 < s.overdueLimit (s.message r).rank) &&
       !(s.message r).overdueReported &&
       decide (s.overdueLimit (s.message r).rank ≤
         (s.minute + 1 - (s.message r).receiptMinute.getD 0).toNat)
     t = { now with
       messages := t.messages
       reports := (now.raiseAll ((allRecords.filter overdue).map fun r =>
         (.office, s.tag r, .overdue))).reports } ∧
     ∀ r : RecordIdx, t.message r =
       if overdue r then { s.message r with overdueReported := true } else s.message r)) ∧
  (
  ∀ s : State,
    (s.tickCount < 5999 → exec .minuteTick s = .next s) ∧
    (5999 ≤ s.tickCount → ∃ u, exec .minuteTick s = .next (minuteTick u) ∧
      u = { s with
        divider := if s.officeTicksDue = 0 then 0 else s.divider
        officeTicksDue := s.officeTicksDue - 1, tickCount := 0, circuits := u.circuits } ∧
      ∀ receive loop : BitVec 32,
        (∀ c : Circuit, receive.getLsbD c.val = (s.circuit c).line.receiveIn) →
        (∀ c : Circuit, loop.getLsbD c.val = (s.circuit c).line.loopIn) →
        exec .minuteTick s = exec (.officeTick receive loop) s))

/-! ### The line units -/

/-- RECEIVE_SAMPLE_TICK short of a stop sample: the receiver's table, with the level sampled (R4, R5). A
false start is no framing error; the receiver compares speeds as it enters HUNTING, where an invalid code raises
SETTING_HELD once (R11, R12). The run of marks that re-arms a tripped open-receive detector goes on (R14).
OPEN_RECEIVE_REARM, due once a tripped open-receive detector has seen 16 receive ticks at mark: the detector is
ARMED and its space count 0 (R14).
It rests on the model's reading in logs 1, 2 and 26. -/
def Obligations.ReceiveTicksDriveTheReceiverAndItsRearming : Prop :=
  (
  ∀ (c : Circuit) (mark : Bool) (s : State), (s.circuit c).line.receiver.stopSampleDue = false →
    ∃ t, exec (.receiveSampleTick c mark) s = .next t ∧
    (let x := s.circuit c
     let falseStart := mark && (match x.line.receiver with
       | .confirming k => decide (7 ≤ k)
       | _ => false)
     let compares := falseStart && s.inService c
     let held := compares && speedSettingInvalid (s.setting c 1) && !x.line.settingHeld
     s.onlyCircuit t c (if held then [(.circuit c none, 0, .settingHeld)] else []) ∧
     t.circuit c = { x with line := { x.line with
       receiver := (match x.line.receiver with
         | .stopped => .stopped
         | .hunting => if mark then .hunting else .confirming 0
         | .confirming k =>
           if k < 7 then .confirming (k + 1) else if mark then .hunting else .assembling 0 0
         | .assembling k bits => .assembling (k + 1)
             (if mark && decide ((k + 1) % 16 = 0) && decide (k + 1 ≤ 80) then bits ||| 1 <<< ((k + 1) / 16 - 1)
              else bits))
       rxTicksDue := x.line.rxTicksDue - 1, receiveIn := mark
       openMarkRun := if x.line.openRearmDue then x.line.openMarkRun
         else if mark && decide (x.line.openDetector = .tripped) then x.line.openMarkRun + 1 else 0
       rxSpeed := if compares then (speedOf (s.setting c 1)).getD x.line.rxSpeed else x.line.rxSpeed
       settingHeld := x.line.settingHeld || held } })) ∧
  (
  ∀ (c : Circuit) (s : State), (s.circuit c).line.openDetector = .tripped →
    16 ≤ (s.circuit c).line.openMarkRun → ∃ t, exec (.openReceiveRearm c) s = .next t ∧
    s.onlyCircuit t c [] ∧
    t.circuit c = { s.circuit c with line :=
      { (s.circuit c).line with openDetector := .armed, openCount := 0, openMarkRun := 0 } })

/-- CHARACTER_RECEIVED in the line unit, in every circuit state and whatever the character leads to: the receiver hunts,
a space stop sample counts as a framing error, up to 65535, and the framing detector sees the character. On a READY
or HELD circuit the receiver compares speeds as it enters HUNTING: a valid code is copied, and an invalid one sets the
SETTING_HELD mark (R5, R6, R11, R12, R16); that the stop sample is that moment is read from the rules (log 25). Nothing
else of the line unit changes, but for the speed and stop length of a transmitter that compares as the circuit becomes
HELD.
CHARACTER_RECEIVED while the circuit is CHECKING, FAULT or RETRY_WAIT (or CLOSED): the character is discarded at the
line unit, once a space stop sample has counted as a framing error, up to 65535, and the framing detector has
seen it: four consecutive mutilated characters, and a good one re-arms (R5, R6, R7, R16). No run reaches the CLOSED
states it covers, whose receiver is STOPPED (R3). That the command takes one of the ticks due, and is obeyed also
where none is, is the model's choice (log 1); so is that a framing trip that is due keeps its count until it is
taken (log 2). -/
def Obligations.CharacterOutOfServiceIsDiscarded : Prop :=
  (
  ∀ (c : Circuit) (mark : Bool) (s : State) (k : Nat) (bits : RelayChar),
    (s.circuit c).line.receiver = .assembling k bits → 95 ≤ k → s.inService c = false →
    ∃ t, exec (.characterReceived c mark) s = .next t ∧ s.onlyCircuit t c [] ∧
    (let x := s.circuit c
     t.circuit c = { x with line := { x.line with
       receiver := .hunting, rxTicksDue := x.line.rxTicksDue - 1, receiveIn := mark
       openMarkRun := (x.line.markRun mark).openMarkRun
       framingErrors := if mark then x.line.framingErrors else min (x.line.framingErrors + 1) 65535
       framingCount := if x.line.framingTripDue then x.line.framingCount
         else if mark then 0 else min (x.line.framingCount + 1) 4
       framingDetector := if mark && !x.line.framingTripDue then .armed else x.line.framingDetector } })) ∧
  (
  ∀ (c : Circuit) (mark : Bool) (s : State) (k : Nat) (bits : RelayChar),
    (s.circuit c).line.receiver = .assembling k bits → 95 ≤ k →
    ∃ t, exec (.characterReceived c mark) s = .next t ∧
    (let l := (s.circuit c).line
     let word := s.setting c 1
     (t.circuit c).line = { l with
       receiver := .hunting, rxTicksDue := l.rxTicksDue - 1, receiveIn := mark
       openMarkRun := (l.markRun mark).openMarkRun
       framingErrors := if mark then l.framingErrors else min (l.framingErrors + 1) 65535
       framingCount := if l.framingTripDue then l.framingCount
         else if mark then 0 else min (l.framingCount + 1) 4
       framingDetector := if mark && !l.framingTripDue then .armed else l.framingDetector
       rxSpeed := if s.inService c then (speedOf word).getD l.rxSpeed else l.rxSpeed
       settingHeld := l.settingHeld || (s.inService c && speedSettingInvalid word)
       txSpeed := (t.circuit c).line.txSpeed, txStop := (t.circuit c).line.txStop }))

/-- CHARACTER_RECEIVED on a READY or HELD point circuit in TEXT, away from line start: the character, BLANK if its stop
sample was space, enters the text FIFO while it holds fewer than 16, and the text length rises; at the maximum
text length the message is marked and the rest discarded; a full FIFO truncates it (R6, R7, R20, R31 to R34,
R36). The settings word 1 in force is valid or already held.
It rests on the model's reading in logs 17 and 25. -/
def Obligations.TextCharacterEntersTheFifo : Prop :=
  ∀ (c : Circuit) (mark : Bool) (s : State) (k : Nat) (bits : RelayChar) (r : RecordIdx),
    (s.circuit c).line.receiver = .assembling k bits → 95 ≤ k → s.inService c = true →
    s.isParty c = false → (s.recogniser c).state = .text → (s.recogniser c).lineStart = false →
    (s.recogniser c).filling = some r →
    (speedSettingInvalid (s.setting c 1) = false ∨ (s.circuit c).line.settingHeld = true) →
    ∃ t, exec (.characterReceived c mark) s = .next t ∧
    (let x := s.circuit c
     let value : RelayChar := if mark then bits else 0
     let room : Prop := fifoCharacters x.textFifo < 16
     let limit : Prop := s.maxLength ≤ (s.message r).textLength + 1
     t = { s with
       circuits := t.circuits, circuitDirty := t.circuitDirty
       messages := t.messages, messageDirty := t.messageDirty } ∧
     s.othersKept t c ∧
     (∀ r' : RecordIdx, r' ≠ r → t.message r' = s.message r') ∧
     (t.circuit c).line.receiver = .hunting ∧
     t.circuit c = { x with
       line := (t.circuit c).line
       textFifo := if room then x.textFifo ++ [.char value r] else x.textFifo
       recogniser := { x.recogniser with
         shift := shiftAfter x.recogniser.shift value (!mark), silence := s.silenceLoad c
         lineStart := mark && decide (bits = 1)
         state := if room ∧ ¬ limit then .text else .discard
         discardCause := if room ∧ ¬ limit then x.recogniser.discardCause
           else if room then some .length else some .poolEmpty
         dropped := if room ∧ ¬ limit then x.recogniser.dropped else if room then 0 else 1 } } ∧
     t.message r = { s.message r with
       textLength := (s.message r).textLength + (if room then 1 else 0)
       mutilated := if mark then (s.message r).mutilated else min ((s.message r).mutilated + 1) 255
       flags := { (s.message r).flags with
         lengthLimit := (s.message r).flags.lengthLimit || decide (room ∧ limit)
         truncated := (s.message r).flags.truncated || decide (¬ room) } })

/-- CHARACTER_RECEIVED with the third letter H at line start in HUNT, on a READY or HELD point circuit: the message
table grants the lowest-numbered FREE record, FILLING and held, from that circuit, and the heading line begins; with no
record FREE the recogniser enters DISCARD with cause TABLE_FULL and nothing dropped yet (R21, R22, R36, R46). That such a discard leaves line start, and the shift
case, as they were is read from the rule, which names them only where a record is granted (log 16).
It rests on the model's reading in logs 16 and 25. -/
def Obligations.StartOfMessageGrantsTheLowestFreeRecord : Prop :=
  ∀ (c : Circuit) (s : State) (k : Nat),
    (s.circuit c).line.receiver = .assembling k chH → 95 ≤ k → s.inService c = true →
    s.isParty c = false → (s.recogniser c).state = .hunt → (s.recogniser c).shift = .letters →
    (s.recogniser c).lineStart = true → (s.recogniser c).somCount = 2 →
    (speedSettingInvalid (s.setting c 1) = false ∨ (s.circuit c).line.settingHeld = true) →
    (∀ r : RecordIdx, s.suspensionLawful → s.lowestFree = some r →
      ∃ t, exec (.characterReceived c true) s = .next t ∧
      t = { s with
        circuits := t.circuits, circuitDirty := t.circuitDirty, messages := t.messages
        messageDirty := t.messageDirty, officeDirty := true
        pool := { s.pool with suspension := t.suspendedNow } } ∧
      s.othersKept t c ∧
      t.circuit c = { s.circuit c with
        line := (t.circuit c).line
        recogniser := { s.recogniser c with
          state := .headingLine, headPos := .afterSom false, lineStart := false, held := [], somCount := 0
          filling := some r, silence := s.silenceLoad c } } ∧
      (∀ r' : RecordIdx, r' ≠ r → t.message r' = s.message r') ∧
      t.message r = { Message.free (s.message r).generation with
        state := .filling, origin := some (.circuit c none), hold := true } ∧
      t.freeCount + 1 = s.freeCount) ∧
    (s.lowestFree = none → ∃ t, exec (.characterReceived c true) s = .next t ∧ s.onlyCircuit t c [] ∧
      t.circuit c = { s.circuit c with
        line := (t.circuit c).line
        recogniser := { s.recogniser c with
          state := .discard, discardCause := some .tableFull, dropped := 0, held := [], somCount := 0
          filling := none, silence := s.silenceLoad c } })

/-- SILENCE_EXPIRY, due at 0: in HUNT the timer only stops. In TEXT on a point circuit the message ends truncated, its
ending behind its last character; in a discard for want of a record it is reported lost (R35, R36, R38).
The line-start watch on a point circuit (R27). A shift character, and a letter E, Q or H that may go on with the
pattern, is held. The fourth E ends the message with EOM, in the destination line as one without a destination, and in
a discard with its RECEIVE_LOSS (R28, R35). The fourth Q cancels it: its characters leave the text FIFO and its record
is freed with CANCELLED_IN, or, while a take for it is in progress, is left for the block writer to free (R29, R57). The
third H ends it with MISSING_END and begins the next message at once (R30). Any other character breaks the pattern, and
in TEXT the held characters go to the text FIFO before it (R27, R32).
The pending text write of a message cancelled so is withdrawn with its characters, which is the model's choice (log
19), and the change of the pool is then judged (R41, R76) in the model's order (log 32).
It rests on the model's reading in logs 2, 19, 25, 32 and 38. -/
def Obligations.SilenceEndsTheMessage : Prop :=
  (
  ∀ (c : Circuit) (s : State), (s.recogniser c).silence = some 0 → ∃ t, exec (.silenceExpiry c) s = .next t ∧
    ((s.recogniser c).state = .hunt →
      s.onlyCircuit t c [] ∧
      t.circuit c = { s.circuit c with recogniser := { s.recogniser c with silence := none } }) ∧
    (∀ r, (s.recogniser c).state = .text → (s.recogniser c).filling = some r → (s.recogniser c).held = [] →
      (s.recogniser c).discardCause = none → s.isParty c = false →
      t = { s with
        circuits := t.circuits, circuitDirty := t.circuitDirty
        messages := t.messages, messageDirty := t.messageDirty } ∧
      s.othersKept t c ∧
      t.circuit c = { s.circuit c with
        textFifo := (s.circuit c).textFifo ++ [.ending r .silence]
        recogniser := { s.recogniser c with
          silence := none, state := .hunt, lineStart := true, somCount := 0, filling := none, dropped := 0 } } ∧
      (∀ r' : RecordIdx, r' ≠ r → t.message r' = s.message r') ∧
      t.message r = { s.message r with flags := { (s.message r).flags with truncated := true } }) ∧
    ((s.recogniser c).state = .discard → (s.recogniser c).filling = none → (s.recogniser c).held = [] →
      (s.recogniser c).discardCause = some .tableFull → s.isParty c = false →
      s.onlyCircuit t c [(.circuit c none, 0, .receiveLoss true (s.recogniser c).dropped)] ∧
      t.circuit c = { s.circuit c with recogniser := { s.recogniser c with
        silence := none, state := .hunt, lineStart := true, somCount := 0, discardCause := none
        dropped := 0 } })) ∧
  (
  ∀ (c : Circuit) (mark : Bool) (s : State) (k : Nat) (bits : RelayChar),
    (s.circuit c).line.receiver = .assembling k bits → 95 ≤ k → s.inService c = true → s.isParty c = false →
    (speedSettingInvalid (s.setting c 1) = false ∨ (s.circuit c).line.settingHeld = true) →
    (s.recogniser c).lineStart = true →
    (let x := s.circuit c
     let q := s.recogniser c
     let letters := q.held.filter fun h => !h.isShift
     let arrival : Recogniser :=
       { q with shift := shiftAfter q.shift (if mark then bits else 0) (!mark), silence := s.silenceLoad c }
     let counted := min (q.dropped + 1) 65535
     let isShift : Prop := mark = true ∧ (bits = 4 ∨ bits = 5)
     let fits : Prop := mark = true ∧ q.shift = .letters ∧ (bits = 10 ∨ bits = 22 ∨ bits = 13) ∧
       ∀ h ∈ letters.head?, h.value = bits
     let completes : RelayChar → Prop := fun letter =>
       q.held.length < 8 ∧ fits ∧ bits = letter ∧ letters.length + 1 = (if letter = 13 then 3 else 4)
     let watched : Prop := q.state = .destLine ∨ q.state = .text ∨ q.state = .skipHeading
     -- held
     ((watched ∨ q.state = .discard) → q.held.length < 8 →
       (isShift ∨ (fits ∧ letters.length + 1 < (if bits = 13 then 3 else 4))) →
       ∃ t, exec (.characterReceived c mark) s = .next t ∧ s.onlyCircuit t c [] ∧
       t.circuit c = { x with
         line := (t.circuit c).line
         recogniser := { arrival with
           held := q.held ++ [{ value := bits, mutilated := false, shift := arrival.shift }]
           dropped := if q.state = .discard then counted else q.dropped } }) ∧
     -- EEEE in a message with a record
     (∀ r, completes 10 → watched → q.filling = some r → q.discardCause = none →
       ∃ t, exec (.characterReceived c mark) s = .next t ∧
       t = { s with
         circuits := t.circuits, circuitDirty := t.circuitDirty
         messages := t.messages, messageDirty := t.messageDirty } ∧
       s.othersKept t c ∧
       t.circuit c = { x with
         line := (t.circuit c).line, textFifo := x.textFifo ++ [.ending r .eom]
         recogniser := { arrival with
           state := .hunt, lineStart := false, held := [], somCount := 0, filling := none, dropped := 0 } } ∧
       (∀ r' : RecordIdx, r' ≠ r → t.message r' = s.message r') ∧
       t.message r = { s.message r with flags := { (s.message r).flags with
         headingError := if q.state = .destLine then some .noDestination
           else (s.message r).flags.headingError } }) ∧
     -- EEEE in a discard
     (completes 10 → q.state = .discard → ∀ cause, q.discardCause = some cause →
       (q.filling = none ↔ cause = .tableFull) →
       ∃ t, exec (.characterReceived c mark) s = .next t ∧
       s.onlyCircuit t c (match cause, q.filling with
         | .tableFull, _ => [(.circuit c none, 0, .receiveLoss true counted)]
         | .poolEmpty, some r => [(.circuit c none, s.tag r, .receiveLoss false counted)]
         | _, _ => []) ∧
       t.circuit c = { x with
         line := (t.circuit c).line
         textFifo := x.textFifo ++ (match q.filling with
           | some r => [.ending r .eom]
           | none => [])
         recogniser := { arrival with
           state := .hunt, lineStart := false, held := [], somCount := 0, filling := none
           discardCause := none, dropped := 0 } }) ∧
     -- QQQQ
     (∀ r, completes 22 → watched → q.filling = some r → q.discardCause = none →
       (let withdrawn : CircuitState := { x with
          textFifo := x.textFifo.filter fun i => match i with
            | .char _ r' => decide (r' ≠ r)
            | .ending _ _ => true
          recogniser := { arrival with
            state := .hunt, lineStart := false, held := [], somCount := 0, filling := none, dropped := 0 } }
        let writer : BlockWriter := { s.writer with
          waiting := s.writer.waiting.filter fun r' => decide (r' ≠ r)
          writes := s.writer.writes.filter fun w => decide (w.after ≠ .leave c r) }
        let m := s.message r
        (s.pool.take = some r → ∃ t, exec (.characterReceived c mark) s = .next t ∧
          t = { s with
            circuits := t.circuits, circuitDirty := t.circuitDirty, writer := writer
            fills := s.fills.set r { s.fill r with cancelled := true } } ∧
          s.othersKept t c ∧ t.circuit c = { withdrawn with line := (t.circuit c).line }) ∧
        (s.pool.take ≠ some r → (∀ w ∈ s.writer.writes, w.after ≠ .joined r) → m.state = .filling →
          s.mapsLawful → ∃ u, exec (.characterReceived c mark) s = .next (poolChanged u) ∧
          u = { s with
            circuits := u.circuits, circuitDirty := u.circuitDirty, writer := writer
            messages := u.messages, messageDirty := u.messageDirty, officeDirty := true
            fills := s.fills.set r .empty, owners := u.owners
            reports := (s.raise m.originPlace (s.tag r) .cancelledIn).reports
            pool := (match m.head with
              | none => s.pool
              | some h => s.pool.append h m.tail m.blockCount) } ∧
          s.othersKept u c ∧ u.circuit c = { withdrawn with line := (u.circuit c).line } ∧
          (∀ r' : RecordIdx, r' ≠ r → u.message r' = s.message r') ∧
          u.message r = Message.free (nextGeneration r m.generation) ∧
          ∀ b, u.owner b =
            if m.head.isSome ∧ s.owner b = .message r then .pool else s.owner b))) ∧
     -- HHH
     (∀ r next, completes 13 → watched → q.filling = some r → q.discardCause = none →
       s.suspensionLawful → s.lowestFree = some next →
       ∃ t, exec (.characterReceived c mark) s = .next t ∧
       t = { s with
         circuits := t.circuits, circuitDirty := t.circuitDirty, messages := t.messages
         messageDirty := t.messageDirty, officeDirty := true
         pool := { s.pool with suspension := t.suspendedNow } } ∧
       s.othersKept t c ∧
       t.circuit c = { x with
         line := (t.circuit c).line, textFifo := x.textFifo ++ [.ending r .missingEnd]
         recogniser := { arrival with
           state := .headingLine, headPos := .afterSom false, lineStart := false, held := [], somCount := 0
           filling := some next, dropped := 0 } } ∧
       (∀ r' : RecordIdx, r' ≠ next → t.message r' = s.message r') ∧
       t.message next = { Message.free (s.message next).generation with
         state := .filling, origin := some (.circuit c none), hold := true }) ∧
     -- the pattern breaks, in TEXT and with room for its characters
     (∀ r, (8 ≤ q.held.length ∨ ¬ isShift ∧ ¬ fits) → q.state = .text → q.filling = some r →
       fifoCharacters x.textFifo + q.held.length < 16 →
       (s.message r).textLength + q.held.length + 1 < s.maxLength →
       ∃ t, exec (.characterReceived c mark) s = .next t ∧
       t = { s with
         circuits := t.circuits, circuitDirty := t.circuitDirty
         messages := t.messages, messageDirty := t.messageDirty } ∧
       s.othersKept t c ∧
       t.circuit c = { x with
         line := (t.circuit c).line
         textFifo := x.textFifo ++ q.held.map (fun h => .char h.value r) ++ [.char (if mark then bits else 0) r]
         recogniser := { arrival with held := [], lineStart := mark && decide (bits = 1) } } ∧
       (∀ r' : RecordIdx, r' ≠ r → t.message r' = s.message r') ∧
       t.message r = { s.message r with
         textLength := (s.message r).textLength + q.held.length + 1
         mutilated := if mark then (s.message r).mutilated else min ((s.message r).mutilated + 1) 255 })))

/-- The three detections of the line watch under REPORT, in CHECKING (but for FRAMING), READY, HELD and FAULT: the
detector trips, LINE_FAULT is raised with the mode REPORT, and nothing else happens; under IGNORE only the
detector trips (R14, R15, R16, R145, R155). In CLOSED and RETRY_WAIT, and for FRAMING in CHECKING, the detection is let
fall whatever the mode: only the detector trips (R152).
So with NO_LINE, due once in a check, at a check count of 1000 without a pass: the check goes on.
It rests on the model's reading in log 2; that the run of marks which re-arms the open-receive detector begins after
the trip is read from the rule (log 26). -/
def Obligations.DetectionUnderReportOrIgnoreDisturbsNothing : Prop :=
  (
  ∀ (c : Circuit) (s : State),
    (let state := (s.circuit c).control.state
     let mode := faultModeOf (s.setting c 0)
     let falls : FaultKind → Prop := fun kind =>
       state = .closed ∨ state = .retryWait ∨ (state = .checking ∧ kind = .framing)
     let quiet : FaultKind → Prop := fun kind => falls kind ∨ mode = .report ∨ mode = .ignore
     let told : FaultKind → List (Place × Word × ReportKind) := fun kind =>
       if ¬ falls kind ∧ mode = .report then [(.circuit c none, 0, .lineFault kind .report)] else []
     (quiet .openReceive → (s.circuit c).line.openDetector = .armed →
       (s.circuit c).control.effective.openLineTime ≤ (s.circuit c).line.openCount →
       ∃ t, exec (.openReceiveTrip c) s = .next t ∧ s.onlyCircuit t c (told .openReceive) ∧
       t.circuit c = { s.circuit c with line :=
         { (s.circuit c).line with openDetector := .tripped, openMarkRun := 0 } }) ∧
     (quiet .sendLoopOpen → (s.circuit c).line.loopDetector = .armed → 10 ≤ (s.circuit c).line.loopCount →
       ∃ t, exec (.sendLoopOpenTrip c) s = .next t ∧ s.onlyCircuit t c (told .sendLoopOpen) ∧
       t.circuit c = { s.circuit c with line := { (s.circuit c).line with loopDetector := .tripped } }) ∧
     (quiet .framing → (s.circuit c).line.framingDetector = .armed → 4 ≤ (s.circuit c).line.framingCount →
       ∃ t, exec (.framingTrip c) s = .next t ∧ s.onlyCircuit t c (told .framing) ∧
       t.circuit c = { s.circuit c with line := { (s.circuit c).line with framingDetector := .tripped } }))) ∧
  (
  ∀ (c : Circuit) (s : State), (s.circuit c).control.state = .checking →
    (s.circuit c).control.checkCount = 1000 → (s.circuit c).control.markRun < 100 →
    (s.circuit c).control.noLineReported = false →
    (faultModeOf (s.setting c 0) = .report ∨ faultModeOf (s.setting c 0) = .ignore) →
    ∃ t, exec (.noLine c) s = .next t ∧
    s.onlyCircuit t c (if faultModeOf (s.setting c 0) = .report
      then [(.circuit c none, 0, .lineFault .noLine .report)] else []) ∧
    t.circuit c = { s.circuit c with control := { (s.circuit c).control with noLineReported := true } })

/-- The detections that stop a circuit: OPEN_RECEIVE and SEND_LOOP_OPEN in CHECKING, READY or HELD, FRAMING in READY or
HELD, under LATCHED or RETRY. The kind joins the fault set and is reported if it is new there, hold pending is cleared,
and the circuit becomes FAULT under LATCHED, or RETRY_WAIT under RETRY with the retry count raised, up to 255, and the
retry timer loaded by the code of word 0 (R152, R153, R154). An idle point circuit changes in nothing else; on a point
circuit the delivery being sent returns to the head of its queue, and a message being received ends, truncated; the
dialogue of a party circuit is QUIET (R37, R113, R137). In FAULT the kind joins the fault set and is reported if it
is new there, and nothing else happens (R152).
NO_LINE ends its line check in the same way (R145).
It rests on the model's reading in log 2; that the run of marks which re-arms the open-receive detector begins after
the trip is read from the rule (log 26), and so is that the character on the line goes on without a source (log 33). -/
def Obligations.DetectionUnderLatchedOrRetryStopsTheCircuit : Prop :=
  (
  ∀ (c : Circuit) (s : State) (mode : FaultMode), faultModeOf (s.setting c 0) = mode →
    (mode = .latched ∨ mode = .retry) →
    (let x := s.circuit c
     let trips : List (Instr × FaultKind × Prop × LineUnit) :=
       [(.openReceiveTrip c, .openReceive,
          x.line.openDetector = .armed ∧ x.control.effective.openLineTime ≤ x.line.openCount,
          { x.line with openDetector := .tripped, openMarkRun := 0 }),
        (.sendLoopOpenTrip c, .sendLoopOpen, x.line.loopDetector = .armed ∧ 10 ≤ x.line.loopCount,
          { x.line with loopDetector := .tripped }),
        (.framingTrip c, .framing, x.line.framingDetector = .armed ∧ 4 ≤ x.line.framingCount,
          { x.line with framingDetector := .tripped })]
     let stopped : CircuitMode := if mode = .retry then .retryWait else .fault
     let faulted : FaultKind → List (Place × Word × ReportKind) := fun kind =>
       if x.control.faults.has kind then [] else [(.circuit c none, 0, .lineFault kind mode)]
     ∀ command kind due line, (command, kind, due, line) ∈ trips → due →
       -- the circuit is in FAULT already
       (x.control.state = .fault → ∃ t, exec command s = .next t ∧ s.onlyCircuit t c (faulted kind) ∧
         t.circuit c = { x with
           line := line, control := { x.control with faults := x.control.faults.add kind } }) ∧
       -- the circuit stops
       (s.inService c = true ∨ x.control.state = .checking ∧ kind ≠ .framing →
         (let told := faulted kind ++ [(.circuit c none, 0, .circuitState stopped .lineFault)]
          let halted : CircuitState := { x with
            line := { line with transmitter := x.line.transmitter.orphan }
            control := { x.control with
              state := stopped, holdPending := false, faults := x.control.faults.add kind
              retryCount := if mode = .retry then min (x.control.retryCount + 1) 255 else x.control.retryCount
              retryTimer := if mode = .retry then some (retryTicksOf (s.setting c 0))
                else x.control.retryTimer } }
          (x.send = .none → (s.recogniser c).state = .hunt → ∃ t, exec command s = .next t ∧
            s.onlyCircuit t c told ∧
            t.circuit c = (if s.isParty c then
              { halted with dialogue := { x.dialogue with
                  state := .quiet, answerTimer := none, pollTimer := none, pollExpired := false, matchPos := 0
                  pollReply := none, replyOwed := none, lineEndWait := false } }
              else halted)) ∧
          (∀ r k d, s.isParty c = false → (s.recogniser c).state = .hunt → x.send.active = some (r, k) →
            s.delivery r k = some d → d.circuit = c → x.send.pendingCancel = false → x.send.cause ≠ some .order →
            (∀ j : SlotIdx, j ≠ k → ∀ d', s.delivery r j = some d' → ¬ (d'.state = .queued ∧ d'.circuit = c)) →
            (let m := s.message r
             let queue := s.queue c m.rank
             let length := m.textLength + 3 * codeCount d.codes + 29
             ∃ t, exec command s = .next t ∧
             t = { s with
               circuits := t.circuits, circuitDirty := t.circuitDirty
               messages := t.messages, messageDirty := t.messageDirty
               reports := (s.raiseAll told).reports, officeDirty := (s.raiseAll told).officeDirty } ∧
             s.othersKept t c ∧
             t.circuit c = { halted with
               send := .none
               queues := x.queues.put m.rank
                 { entries := ⟨r, k, length⟩ :: queue.entries, count := queue.count + length } } ∧
             (∀ r' : RecordIdx, r' ≠ r → t.message r' = s.message r') ∧
             t.message r = { m with slots := m.slots.set k (some
               { d with state := .queued, attempts := min (d.attempts + 1) 15, saved := none }) })) ∧
          (∀ r, s.isParty c = false → x.send = .none → (s.recogniser c).state ≠ .hunt →
            (s.recogniser c).filling = some r →
            ((s.recogniser c).discardCause = none ∨ (s.recogniser c).discardCause = some .length) →
            ∃ t, exec command s = .next t ∧
            t = { s with
              circuits := t.circuits, circuitDirty := t.circuitDirty
              messages := t.messages, messageDirty := t.messageDirty
              reports := (s.raiseAll told).reports, officeDirty := (s.raiseAll told).officeDirty } ∧
            s.othersKept t c ∧
            t.circuit c = { halted with
              textFifo := x.textFifo ++ [.ending r .stopped]
              recogniser := { x.recogniser with
                state := .hunt, lineStart := true, held := [], somCount := 0, filling := none
                discardCause := none, dropped := 0 } } ∧
            (∀ r' : RecordIdx, r' ≠ r → t.message r' = s.message r') ∧
            t.message r = { s.message r with flags := { (s.message r).flags with truncated := true } }))))) ∧
  (
  ∀ (c : Circuit) (s : State), (s.circuit c).control.state = .checking →
    (s.circuit c).control.checkCount = 1000 → (s.circuit c).control.markRun < 100 →
    (s.circuit c).control.noLineReported = false →
    (s.circuit c).send = .none → s.isParty c = false → (s.recogniser c).state = .hunt →
    ∀ mode, faultModeOf (s.setting c 0) = mode → (mode = .latched ∨ mode = .retry) →
    ∃ t, exec (.noLine c) s = .next t ∧
    (let stopped : CircuitMode := if mode = .retry then .retryWait else .fault
     s.onlyCircuit t c
       ((if (s.circuit c).control.faults.noLine then []
         else [(.circuit c none, 0, .lineFault .noLine mode)]) ++
        [(.circuit c none, 0, .circuitState stopped .lineFault)]) ∧
     t.circuit c = { s.circuit c with
       line := { (s.circuit c).line with transmitter := (s.circuit c).line.transmitter.orphan }
       control := { (s.circuit c).control with
         state := stopped, holdPending := false, noLineReported := true
         faults := { (s.circuit c).control.faults with noLine := true }
         retryCount := if mode = .retry then min ((s.circuit c).control.retryCount + 1) 255
           else (s.circuit c).control.retryCount
         retryTimer := if mode = .retry then some (retryTicksOf (s.setting c 0))
           else (s.circuit c).control.retryTimer } }))

/-- SEND_TICK within a character advances it and nothing else. An IDLE transmitter that is offered a character,
with no cancel order pending and no train order to make way for, begins its start element, and one that is
offered none stays IDLE and holds mark (R8, R9).
It rests on the model's reading in logs 1 and 14. -/
def Obligations.SendTickRunsTheTransmitter : Prop :=
  ∀ (c : Circuit) (s : State),
    (∀ char tick total source, (s.circuit c).line.transmitter = .sending char tick total source →
      tick + 1 < total → ∃ t, exec (.sendTick c) s = .next t ∧ s.onlyCircuit t c [] ∧
      t.circuit c = { s.circuit c with line := { (s.circuit c).line with
        transmitter := .sending char (tick + 1) total source
        txTicksDue := (s.circuit c).line.txTicksDue - 1 } }) ∧
    ((s.circuit c).line.transmitter = .idle → (s.circuit c).send.pendingCancel = false →
      s.preempts c = false → ∃ t, exec (.sendTick c) s = .next t ∧ s.onlyCircuit t c [] ∧
      (s.offered c = none →
        t.circuit c = { s.circuit c with line := { (s.circuit c).line with
          txTicksDue := (s.circuit c).line.txTicksDue - 1 } }) ∧
      (∀ char source, s.offered c = some (char, source) →
        t.circuit c = { s.circuit c with
          line := { (s.circuit c).line with
            txTicksDue := (s.circuit c).line.txTicksDue - 1
            transmitter := .sending char 0 (characterTicks (s.circuit c).line.txStop) (some source) }
          send := { (s.circuit c).send with
            fifo := if source = .sendController ∧ (s.circuit c).send.phase = .text
              then (s.circuit c).send.fifo.tail else (s.circuit c).send.fifo } }))

/-- CHARACTER_BOUNDARY within a transmission, on a circuit whose settings word 1 is valid, with no cancel order pending
and no train order to make way for: the remaining count falls by one, and the next character goes out with no
mark between them, at the speed and stop length then in force (R8 to R11, R103, R116). The heading is followed by the
destination line, that by the text or, for a message without text, by the trailer, and the text by the trailer; a
text character comes from the send FIFO, and where the FIFO is empty the transmitter is IDLE and holds mark until one
comes (R104, R106, R107). The four lines are those of the last clause.
It rests on the model's reading in log 1. -/
def Obligations.HeadingCharactersFollowEachOther : Prop :=
  (
  ∀ (c : Circuit) (s : State) (char : RelayChar) (tick total : Nat) (r : RecordIdx) (k : SlotIdx) (d : Delivery),
    (s.circuit c).line.transmitter = .sending char tick total (some .sendController) → total ≤ tick + 1 →
    (s.circuit c).send.active = some (r, k) → s.delivery r k = some d →
    (s.circuit c).send.pendingCancel = false → s.preempts c = false →
    (s.isParty c = false ∨ (s.circuit c).dialogue.state = .delivering) → s.inService c = true →
    speedSettingInvalid (s.setting c 1) = false →
    (let x := s.circuit c
     let m := s.message r
     let p := x.send.position
     let heading := headingLine (x.send.channel.getD 0) m.rank (m.originCode.getD ⟨0, 0⟩)
     let destination := destinationLine m d.codes
     let goes : Phase → Nat → Option RelayChar → Prop := fun phase position next =>
       ∃ t, exec (.characterBoundary c) s = .next t ∧ s.onlyCircuit t c [] ∧
       t.circuit c = { x with
         send := { x.send with
           remaining := x.send.remaining - 1, phase := phase, position := position
           fifo := if phase = .text then x.send.fifo.tail else x.send.fifo }
         line := { x.line with
           txTicksDue := x.line.txTicksDue - 1
           txSpeed := (speedOf (s.setting c 1)).getD x.line.txSpeed
           txStop := (stopOf (s.setting c 1)).getD x.line.txStop
           transmitter := match next with
             | some ch => .sending ch 0
                 (characterTicks ((stopOf (s.setting c 1)).getD x.line.txStop)) (some .sendController)
             | none => .idle } }
     let afterDestination : Prop :=
       if m.textLength = 0 then goes .trailer 0 (some 2) else goes .text 0 x.send.fifo.head?
     (x.send.phase = .heading →
       (p + 1 < 19 → goes .heading (p + 1) heading[p + 1]?) ∧ (p + 1 = 19 → goes .dest 0 destination[0]?)) ∧
     (x.send.phase = .dest →
       (p + 1 < destination.length → goes .dest (p + 1) destination[p + 1]?) ∧
       (p + 1 = destination.length → afterDestination)) ∧
     (x.send.phase = .text →
       (p + 1 < m.textLength → goes .text (p + 1) x.send.fifo.head?) ∧
       (m.textLength = p + 1 → goes .trailer 0 (some 2))) ∧
     (x.send.phase = .trailer → p + 1 < 9 → goes .trailer (p + 1) trailerLine[p + 1]?))) ∧
  (
  ∀ (channel : Nat) (p : Precedence) (origin : Code) (m : Message) (codes : PositionSet),
    (let digit : Nat → RelayChar := fun d => BitVec.ofNat 5 (if d = 0 then 15 else d + 5)
     let letter : RelayChar := match p with
       | .t => 25
       | .u => 26
       | .r => 23
       | .s => 24
     headingLine channel p origin =
       [2, 1, 5, 13, 13, 13, 3, 4, digit (channel / 100 % 10), digit (channel / 10 % 10), digit (channel % 10),
        5, 3, letter, 3, origin.first, origin.second, 2, 1] ∧
     destinationLine m codes =
       [(3 : RelayChar)].intercalate (((List.finRange 8).filter fun i => codes.getLsbD i.val).filterMap fun i =>
         match m.destinations[i.val]? with
         | some (Dest.code x) => some [x.first, x.second]
         | _ => none) ++ [2, 1] ∧
     trailerLine = [2, 1, 5, 10, 10, 10, 10, 2, 1] ∧ cancelLine = [2, 1, 5, 22, 22, 22, 22, 2, 1]))

/-- CHARACTER_BOUNDARY of the ninth trailer character on a point circuit: the delivery is DONE, DELIVERED is raised
with its slot and channel number, the controller returns to phase NONE, and the record moves on (R48,
R52); then a pending hold takes effect or the scheduler judges, and the transmitter compares speeds and takes
what is then offered (R9, R11, R108, R147).
The ninth character of a cancel line ends the transmission in the same way: after a preemption the delivery returns to
the head of its queue with its attempts raised, and PREEMPTED is raised (R97, R112); after a cancel order the delivery
is CANCELLED, and the record moves on (R114). A pending hold makes the circuit HELD with cause HOLD_DONE as the
transmission ends (R147).
On a party circuit the ninth trailer character leaves the delivery ACTIVE: the phase is RECEIPT with remaining count 0,
and the dialogue waits for the receipt, its answer timer loaded, the match position 0 and the case LETTERS (R109, R120,
R126). With a cancel order pending the delivery is CANCELLED at once, and the dialogue is QUIET (R135). The ninth
character of a cancel line there ends the transmission as on a point circuit, the dialogue QUIET (R112, R114, R134).
That the transmitter compares speeds only after the source has been told, so that its SETTING_HELD follows the other
reports of the boundary, is the model's choice (log 49).
It rests on the model's reading in logs 15, 32 and 49. That the command takes one of the send ticks due, and is obeyed also
where none is, is the model's choice (log 1). -/
def Obligations.LastTrailerCharacterDeliversTheMessage : Prop :=
  (
  ∀ (c : Circuit) (s : State) (char : RelayChar) (tick total : Nat) (r : RecordIdx) (k : SlotIdx) (d : Delivery),
    (s.circuit c).line.transmitter = .sending char tick total (some .sendController) → total ≤ tick + 1 →
    (s.circuit c).send.position = 8 →
    (s.circuit c).send.active = some (r, k) → s.delivery r k = some d → s.isParty c = false →
    (let x := s.circuit c
     let m := s.message r
     let idle : LineUnit := { x.line with transmitter := .idle, txTicksDue := x.line.txTicksDue - 1 }
     let ends : State → State := fun u =>
       let v := compareSpeed false true c (judgePoint c (transmissionEnded c u))
       takeOffered c (if v.preempts c then beginCancelLine c .preempt v else v)
     let keeps : State → List (Place × Word × ReportKind) → Prop := fun u told =>
       u = { s with
         circuits := u.circuits, circuitDirty := u.circuitDirty
         messages := u.messages, messageDirty := u.messageDirty
         reports := (s.raiseAll told).reports, officeDirty := (s.raiseAll told).officeDirty } ∧
       s.othersKept u c ∧ (∀ r' : RecordIdx, r' ≠ r → u.message r' = s.message r')
     (x.send.phase = .trailer → ∃ u, exec (.characterBoundary c) s = .next (ends (settle r u)) ∧
       keeps u [(.circuit c none, s.tag r, .delivered k (x.send.channel.getD 0))] ∧
       u.circuit c = { x with send := .none, line := idle } ∧
       u.message r = { m with slots := m.slots.set k (some { d with state := .done }) }) ∧
     (x.send.phase = .cancel → x.send.cause = some .order →
       ∃ u, exec (.characterBoundary c) s = .next (ends (settle r u)) ∧ keeps u [] ∧
       u.circuit c = { x with send := .none, line := idle } ∧
       u.message r = { m with slots := m.slots.set k (some { d with state := .cancelled }) }) ∧
     (x.send.phase = .cancel → x.send.cause = some .preempt → d.circuit = c →
       (∀ j : SlotIdx, j ≠ k → ∀ d', s.delivery r j = some d' → ¬ (d'.state = .queued ∧ d'.circuit = c)) →
       (let length := m.textLength + 3 * codeCount d.codes + 29
        ∃ u, exec (.characterBoundary c) s = .next (ends u) ∧
        keeps u [(.circuit c none, s.tag r, .preempted)] ∧
        u.circuit c = { x with
          send := .none, line := idle
          queues := x.queues.put m.rank
            { entries := ⟨r, k, length⟩ :: (s.queue c m.rank).entries
              count := (s.queue c m.rank).count + length } } ∧
        u.message r = { m with slots := m.slots.set k (some
          { d with state := .queued, attempts := min (d.attempts + 1) 15, saved := none }) })))) ∧
  (
  ∀ (c : Circuit) (s : State),
    ((s.circuit c).control.holdPending = false → transmissionEnded c s = s) ∧
    ((s.circuit c).control.holdPending = true → speedSettingInvalid (s.setting c 1) = false →
      s.onlyCircuit (transmissionEnded c s) c [(.circuit c none, 0, .circuitState .held .holdDone)] ∧
      (transmissionEnded c s).circuit c = { s.circuit c with
        line := (s.circuit c).line.compared (s.setting c 1)
        control := { (s.circuit c).control with state := .held, holdPending := false } })) ∧
  (
  ∀ (c : Circuit) (s : State) (char : RelayChar) (tick total : Nat),
    (s.circuit c).line.transmitter = .sending char tick total (some .sendController) → total ≤ tick + 1 →
    (s.circuit c).send.position = 8 → s.isParty c = true →
    (let x := s.circuit c
     let idle : LineUnit := { x.line with transmitter := .idle, txTicksDue := x.line.txTicksDue - 1 }
     let waits : Dialogue := { x.dialogue with
       state := .receiptWait, answerTimer := some x.control.effective.answerTimeout, matchPos := 0
       answerShift := .letters, pollReply := none }
     (x.send.phase = .trailer → x.send.pendingCancel = false → speedSettingInvalid (s.setting c 1) = false →
       ∃ t, exec (.characterBoundary c) s = .next t ∧ s.onlyCircuit t c [] ∧
       t.circuit c = { x with
         send := { x.send with phase := .receipt, position := 0, remaining := 0 }, dialogue := waits
         line := { idle with
           txSpeed := if s.inService c then (speedOf (s.setting c 1)).getD x.line.txSpeed else x.line.txSpeed
           txStop := if s.inService c then (stopOf (s.setting c 1)).getD x.line.txStop else x.line.txStop } }) ∧
     ∀ r k d, x.send.active = some (r, k) → s.delivery r k = some d →
       (let m := s.message r
        let ends : State → State := fun u =>
          let v := compareSpeed false true c (judge c ((transmissionEnded c u).updDialogue c fun d =>
            { d with state := .quiet, answerTimer := none, lineEndWait := false, pollReply := none }))
          takeOffered c (if v.preempts c then beginCancelLine c .preempt v else v)
        let keeps : State → List (Place × Word × ReportKind) → Prop := fun u told =>
          u = { s with
            circuits := u.circuits, circuitDirty := u.circuitDirty
            messages := u.messages, messageDirty := u.messageDirty
            reports := (s.raiseAll told).reports, officeDirty := (s.raiseAll told).officeDirty } ∧
          s.othersKept u c ∧ (∀ r' : RecordIdx, r' ≠ r → u.message r' = s.message r')
        let cancelled : State → Dialogue → Prop := fun u dialogue =>
          keeps u [] ∧ u.circuit c = { x with send := .none, line := idle, dialogue := dialogue } ∧
          u.message r = { m with slots := m.slots.set k (some { d with state := .cancelled }) }
        (x.send.phase = .trailer → x.send.pendingCancel = true →
          ∃ u, exec (.characterBoundary c) s = .next (ends (settle r u)) ∧ cancelled u waits) ∧
        (x.send.phase = .cancel → x.send.cause = some .order →
          ∃ u, exec (.characterBoundary c) s = .next (ends (settle r u)) ∧ cancelled u x.dialogue) ∧
        (x.send.phase = .cancel → x.send.cause = some .preempt → d.circuit = c →
          (∀ j : SlotIdx, j ≠ k → ∀ d', s.delivery r j = some d' →
            ¬ (d'.state = .queued ∧ d'.circuit = c ∧ d'.station = d.station)) →
          (let length := m.textLength + 3 * codeCount d.codes + 29
           ∃ u, exec (.characterBoundary c) s = .next (ends u) ∧
           keeps u [(.circuit c (some d.station), s.tag r, .preempted)] ∧
           u.circuit c = { x with
             send := .none, line := idle
             queues := x.queues.put m.rank
               { entries := ⟨r, k, length⟩ :: (s.queue c m.rank).entries
                 count := (s.queue c m.rank).count + length } } ∧
           u.message r = { m with slots := m.slots.set k (some
             { d with state := .queued, attempts := min (d.attempts + 1) 15, saved := none }) })))))

/-- A train order preempts an R or S message at a character boundary: the cancel line begins, with remaining
count 9, the fetch stops and the send FIFO is emptied, and the first cancel character, CR, goes out at once
(R110, R111).
It rests on the model's reading in log 15. That the command takes one of the send ticks due, and is obeyed also
where none is, is the model's choice (log 1). -/
def Obligations.TrainOrderPreemptsAtTheBoundary : Prop :=
  ∀ (c : Circuit) (s : State) (char : RelayChar) (tick total : Nat) (r : RecordIdx) (k : SlotIdx) (e : QueueEntry),
    (s.circuit c).line.transmitter = .sending char tick total (some .sendController) → total ≤ tick + 1 →
    (s.circuit c).send.active = some (r, k) → (s.circuit c).send.phase = .text →
    (s.circuit c).send.position + 1 < (s.message r).textLength →
    (s.circuit c).send.pendingCancel = false → s.isParty c = false →
    (s.circuit c).control.effective.preemption = true →
    ((s.message r).rank = .r ∨ (s.message r).rank = .s) →
    ¬ ((s.circuit c).control.state = .ready ∧ (s.circuit c).control.holdPending = true) →
    e ∈ (s.queue c .t).entries → s.inService c = true → speedSettingInvalid (s.setting c 1) = false →
    ∃ t, exec (.characterBoundary c) s = .next t ∧ s.onlyCircuit t c [] ∧
    (let x := s.circuit c
     t.circuit c = { x with
       send := { x.send with
         phase := .cancel, cause := some .preempt, position := 0, remaining := 9, fifo := [], fetch := none }
       line := { x.line with
         txTicksDue := x.line.txTicksDue - 1
         txSpeed := (speedOf (s.setting c 1)).getD x.line.txSpeed
         txStop := (stopOf (s.setting c 1)).getD x.line.txStop
         transmitter := .sending chCR 0
           (characterTicks ((stopOf (s.setting c 1)).getD x.line.txStop)) (some .sendController) } })

/-! ### The block writer, the pool unit and the text fetcher -/

/-- TEXT_CHARACTER_TAKEN with a block to fill: a character for an even position goes to the low byte of the
assembled word and leaves the FIFO at once; one for an odd position completes the word, whose write is then the
block writer's next and which keeps the character in the FIFO until it is made (R39).
TEXT_CHARACTER_TAKEN for a message that has no block or a full one: a take begins for it if the pool holds a block
and no message waits; with the pool empty it joins the waiting list, and the character keeps its place (R40,
R41).
It rests on the model's reading in log 18. -/
def Obligations.TextCharacterTakenFillsOrAsksForABlock : Prop :=
  (
  ∀ (c : Circuit) (v : RelayChar) (r : RecordIdx) (rest : List FifoItem) (b : Nat) (s : State),
    s.writer.writes = [] → s.nextServed = some c → (s.circuit c).textFifo = .char v r :: rest →
    (s.fill r).current = some b → (s.fill r).position < 60 →
    ∃ t, exec .textCharacterTaken s = .next t ∧
    ((s.fill r).position % 2 = 0 →
      t = { s with
        writer := { s.writer with turn := c + 1 }, fills := t.fills
        circuits := t.circuits, circuitDirty := t.circuitDirty } ∧
      s.othersKept t c ∧ t.circuit c = { s.circuit c with textFifo := rest } ∧
      (∀ r' : RecordIdx, r' ≠ r → t.fill r' = s.fill r') ∧
      t.fill r = { s.fill r with position := (s.fill r).position + 1, assembled := some v }) ∧
    ((s.fill r).position % 2 = 1 →
      t = { s with writer := { s.writer with
        turn := c + 1
        writes := [{ offset := offBlock b (2 + ((s.fill r).position - 1) / 2)
                     value := textWord ((s.fill r).assembled.getD 0) v, after := .leave c r }] } })) ∧
  (
  ∀ (c : Circuit) (v : RelayChar) (r : RecordIdx) (rest : List FifoItem) (s : State),
    s.writer.writes = [] → s.nextServed = some c → (s.circuit c).textFifo = .char v r :: rest →
    ((s.fill r).current = none ∨ (s.fill r).position = 60) → s.writer.waiting = [] →
    (0 < s.pool.count →
      exec .textCharacterTaken s = .next { s with pool := { s.pool with take := some r } }) ∧
    (s.pool.count = 0 →
      exec .textCharacterTaken s = .next { s with writer := { s.writer with waiting := [r] } }))

/-- BLOCK_WRITE_DONE makes the block writer's oldest write, of its word only. A write that completes a pair of
characters lets the second leave the FIFO and moves the fill position on; the last write of an ended message
hands its record to the message table (R39, R40, R42). A write that its sender's cancel withdrew while it was at the
M-port is made and leads to nothing (R29), which is the model's choice (log 19).
RETURN_WRITE_DONE: a pending return value is written into the link word of the block it names, and is pending no
longer (R68, R73).
It rests on the model's reading in log 10. -/
def Obligations.OwnWritesStoreTheirWords : Prop :=
  (
  ∀ (w : BlockWrite) (rest : List BlockWrite) (s : State), s.runDue (.blockWrite w) →
    s.writer.writes = w :: rest → s.mapsLawful →
    ((w.after = .nothing ∨ ∃ r, w.after = .joined r ∧ (s.fill r).cancelled = false) →
      ∃ t, exec .blockWriteDone s = .next t ∧
      t = { s with store := t.store, arbiter := .free, writer := { s.writer with writes := rest } } ∧
      s.wroteWord t (s.relayAddress w.offset) w.value) ∧
    (∀ c r, w.after = .leave c r → ∃ t, exec .blockWriteDone s = .next t ∧
      t = { s with
        store := t.store, arbiter := .free, writer := { s.writer with writes := rest }, fills := t.fills
        circuits := t.circuits, circuitDirty := t.circuitDirty } ∧
      s.wroteWord t (s.relayAddress w.offset) w.value ∧ s.othersKept t c ∧
      t.circuit c = { s.circuit c with textFifo := (s.circuit c).textFifo.tail } ∧
      (∀ r' : RecordIdx, r' ≠ r → t.fill r' = s.fill r') ∧
      t.fill r = { s.fill r with position := (s.fill r).position + 1, assembled := none }) ∧
    (∀ r cause, w.after = .letGo r cause → ∃ u, exec .blockWriteDone s = .next (takeReceived r cause u) ∧
      u = { s with store := u.store, arbiter := .free, writer := { s.writer with writes := rest } } ∧
      s.wroteWord u (s.relayAddress w.offset) w.value)) ∧
  (
  ∀ (w : BlockWrite) (s : State), s.arbiter = .granted (.blockWrite w) 0 → s.writer.writes.head? ≠ some w →
    s.mapsLawful → ∃ t, exec .blockWriteDone s = .next t ∧
    t = { s with store := t.store, arbiter := .free } ∧
    s.wroteWord t (s.relayAddress w.offset) w.value) ∧
  (
  ∀ (b head : Nat) (s : State), s.runDue (.returnWrite b head) → s.mapsLawful →
    ∃ t, exec .returnWriteDone s = .next t ∧
    t = { s with
      store := t.store, arbiter := .free, pool := { s.pool with returns := s.pool.returns.erase (b, head) } } ∧
    s.wroteWord t (s.relayAddress (offBlock b 0)) (BitVec.ofNat 16 head))

/-- ENDING_REACHED for a message with a block: the writes that complete its chain are the odd character's word with
BLANK in the high byte, if there is one, then the count word, then the link 0xFFFF, after which the record is
handed over (R42).
ENDING_REACHED for a message with no block that goes to intercept as a whole, its hold standing: the record is
DONE with every destination position in the intercept set, the receipt minute is stamped, and MESSAGE_IN carries
its tag and flag word; no route is read (R42, R49).
It rests on the model's reading in log 18. -/
def Obligations.EndingReachedClosesTheMessage : Prop :=
  (
  ∀ (c : Circuit) (r : RecordIdx) (cause : EndCause) (rest : List FifoItem) (b : Nat) (s : State),
    s.writer.writes = [] → s.nextServed = some c → (s.circuit c).textFifo = .ending r cause :: rest →
    (s.fill r).current = some b → ∃ t, exec .endingReached s = .next t ∧
    t = { s with
      writer := { s.writer with turn := c + 1, writes := t.writer.writes }
      circuits := t.circuits, circuitDirty := t.circuitDirty } ∧
    s.othersKept t c ∧ t.circuit c = { s.circuit c with textFifo := rest } ∧
    t.writer.writes =
      (if (s.fill r).position % 2 = 1 then
        [{ offset := offBlock b (2 + (s.fill r).position / 2)
           value := textWord ((s.fill r).assembled.getD 0) 0, after := .nothing }] else []) ++
      [{ offset := offBlock b 1, value := BitVec.ofNat 16 (s.fill r).position, after := .nothing },
       { offset := offBlock b 0, value := 0xFFFF, after := .letGo r cause }]) ∧
  (
  ∀ (c : Circuit) (r : RecordIdx) (cause : EndCause) (rest : List FifoItem) (s : State),
    s.writer.writes = [] → s.nextServed = some c → (s.circuit c).textFifo = .ending r cause :: rest →
    (s.fill r).current = none → (s.message r).state = .filling → (s.message r).hold = true →
    (cause = .missingEnd ∨ (s.message r).flags.wholeIntercept = true) →
    ∃ t, exec .endingReached s = .next t ∧
    (let after : Message := { s.message r with
       state := .done, receiptMinute := some s.minute
       interceptSet := BitVec.ofNat 8 (2 ^ (s.message r).destinations.length - 1)
       flags := { (s.message r).flags with
         intercept := true
         missingEnd := (s.message r).flags.missingEnd || decide (cause = .missingEnd) } }
     let told := s.raise (s.message r).originPlace (s.tag r) (.messageIn after.flagWord)
     t = { s with
       writer := { s.writer with turn := c + 1 }, fills := t.fills
       circuits := t.circuits, circuitDirty := t.circuitDirty
       messages := t.messages, messageDirty := t.messageDirty
       reports := told.reports, officeDirty := told.officeDirty } ∧
     s.othersKept t c ∧ t.circuit c = { s.circuit c with textFifo := rest } ∧
     (∀ r' : RecordIdx, r' ≠ r → t.message r' = s.message r' ∧ t.fill r' = s.fill r') ∧
     t.fill r = .empty ∧ t.message r = after))

/-- TAKE_COMPLETE: the block at the pool head becomes the message's; the new head is the pending return value for
the block if there is one, and that write is dropped, else the link read; the block joins the record's chain, and
a full block before it gets its count word and its link written (R40, R72). The pool change is then judged.
It rests on the model's reading in logs 10 and 32. -/
def Obligations.TakeMovesThePoolHeadToTheMessage : Prop :=
  ∀ (r : RecordIdx) (b : Nat) (s : State), s.readDue .take → s.pool.take = some r →
    s.pool.head = some b → (s.fill r).cancelled = false → s.mapsLawful →
    ∃ u, exec .takeComplete s = .next (poolChanged u) ∧
    u = { s with
      arbiter := .free
      pool := { s.pool with
        take := none, count := s.pool.count - 1
        head := if s.pool.count - 1 = 0 then none
          else some ((s.pool.pendingReturn b).getD (s.readRelay (offBlock b 0)).toNat)
        tail := if s.pool.count - 1 = 0 then none else s.pool.tail
        returns := s.pool.returns.filter fun e => decide (e.1 ≠ b) }
      officeDirty := s.officeDirty || decide (0 < s.pool.count), owners := u.owners
      messages := u.messages, messageDirty := u.messageDirty, fills := u.fills
      writer := { s.writer with
        waiting := s.writer.waiting.filter fun x => decide (x ≠ r)
        writes := s.writer.writes ++ (match (s.fill r).current with
          | some old =>
            [{ offset := offBlock old 1, value := 60, after := .nothing },
             { offset := offBlock old 0, value := BitVec.ofNat 16 b, after := .joined r }]
          | none => []) } } ∧
    u.owner b = .message r ∧ (∀ b', b' ≠ b → u.owner b' = s.owner b') ∧
    (∀ r' : RecordIdx, r' ≠ r → u.message r' = s.message r' ∧ u.fill r' = s.fill r') ∧
    u.fill r = { s.fill r with current := some b, position := 0, assembled := none } ∧
    u.message r = { s.message r with
      head := some ((s.message r).head.getD b), tail := some b
      blockCount := (s.message r).blockCount + 1 }

/-- The two reads of the text fetch. A count-and-link read finds how many characters of the block are to be read,
the smaller of its count and those still to be fetched, and keeps its link; a text word read puts its two
characters, or the one still wanted, into the send FIFO, and the fetch moves on to the next word, to the block
the link names, or to its end (R105, R106, R169). A read whose fetch has been stopped since its grant is discarded
(R111, R113).
It rests on the model's reading in logs 10, 23 and 45. -/
def Obligations.TextFetchReadsTheChain : Prop :=
  ∀ (c : Circuit) (f : Fetch) (s : State),
    (let served : Circuit := if s.arbiter.open then c else s.fetchLast
     ((s.circuit c).send.fetch = some f →
       (f.run = none → s.readDue (.fetchBlock c f) → ∃ t, exec .fetchBlockReadDone s = .next t ∧
         t = { s with
           arbiter := .free, circuits := t.circuits, circuitDirty := t.circuitDirty, fetchLast := served } ∧
         s.othersKept t c ∧
         (let left := min (blockCountOf (s.readRelay (offBlock f.block 1))) f.toFetch
          let link := s.readRelay (offBlock f.block 0)
          t.circuit c = { s.circuit c with send := { (s.circuit c).send with
            fetch :=
              if left = 0 then some { f with block := link.toNat }
              else some { f with run := some { left := left, word := 0, link := link } } } })) ∧
       (∀ run, f.run = some run → s.readDue (.fetchText c f) → 0 < run.left → run.left ≤ f.toFetch →
         ∃ t, exec .fetchTextReadDone s = .next t ∧
         t = { s with
           arbiter := .free, circuits := t.circuits, circuitDirty := t.circuitDirty, fetchLast := served } ∧
         s.othersKept t c ∧
         (let w := s.readRelay (offBlock f.block (2 + run.word))
          let n := min run.left 2
          t.circuit c = { s.circuit c with send := { (s.circuit c).send with
            fifo := (s.circuit c).send.fifo ++ [firstChar w, secondChar w].take n
            fetch :=
              if f.toFetch = n then none
              else if run.left = n then some { block := run.link.toNat, toFetch := f.toFetch - n, run := none }
              else some { f with
                toFetch := f.toFetch - n
                run := some { run with left := run.left - n, word := run.word + 1 } } } }))) ∧
     ((s.circuit c).send.fetch ≠ some f → ∀ made,
       (s.arbiter = .granted (.fetchBlock c f) made →
         exec .fetchBlockReadDone s = .next { s with arbiter := .free }) ∧
       (s.arbiter = .granted (.fetchText c f) made →
         exec .fetchTextReadDone s = .next { s with arbiter := .free })))

/-- GIVE_ORDER: refused BUSY during a build; else the range, clipped at block 3583, is built from its first block,
and an empty one ends at once with GIVE_DONE and counts of 0 (R69, R71).
GIVE_STEP: a PROCESSOR block joins the pool at its tail, its link written 0xFFFF and then the old tail's link with
it, and becomes POOL, also where a take has been asked since the run was granted; any other block is skipped, with no
store cycle, when neither a take nor a run of the pool unit comes before it. After the last block the build is
IDLE and GIVE_DONE carries the two counts (R68, R70, R71). The pool change is then judged.
It rests on the model's reading in logs 10, 32 and 35. -/
def Obligations.GiveOrderBuildsItsRange : Prop :=
  (
  ∀ (count : Word) (s : State), s.granted → s.mapsLawful → ∃ t, exec (.giveOrder count) s = .next t ∧
    s.wroteWord t (s.relayAddress 0x2E) count ∧
    (let first := (s.shadowAt 0x2D).toNat
     let stop := min (first + count.toNat) 3584
     (∀ g, s.pool.give = some g →
       t = { s with
         store := t.store, arbiter := .granted .passage 0
         reports := (s.raise .office 0 (.commandRefused .busy 0)).reports
         officeDirty := (s.raise .office 0 (.commandRefused .busy 0)).officeDirty }) ∧
     (s.pool.give = none → first < stop →
       t = { s with
         store := t.store, arbiter := .granted .passage 0, officeDirty := true
         pool := { s.pool with give := some { position := first, stop := stop, given := 0, skipped := 0 } } }) ∧
     (s.pool.give = none → stop ≤ first →
       t = { s with
         store := t.store, arbiter := .granted .passage 0, officeDirty := true
         reports := (s.raise .office 0 (.giveDone 0)).reports }))) ∧
  (
  ∀ (g : Give) (s : State), s.pool.give = some g → s.mapsLawful →
    (let last : Prop := g.stop ≤ g.position + 1
     let next : Bool → Give := fun given =>
       { g with
         position := g.position + 1, given := g.given + (if given then 1 else 0)
         skipped := g.skipped + (if given then 0 else 1) }
     let told : Bool → State := fun given =>
       let base : State := { s with officeDirty := s.officeDirty || given || decide last }
       if last then base.raise .office (BitVec.ofNat 16 (next given).given) (.giveDone (next given).skipped) else base
     let linked : Nat → Address → Word := fun made a =>
       match s.pool.count, s.pool.tail with
       | 0, _ | _, none =>
         if made = 0 ∧ a = s.relayAddress (offBlock g.position 0) then 0xFFFF else s.readStore a
       | _, some tail =>
         if made ≤ 1 ∧ a = s.relayAddress (offBlock tail 0) then BitVec.ofNat 16 g.position
         else if made = 0 ∧ a = s.relayAddress (offBlock g.position 0) then 0xFFFF else s.readStore a
     (∀ made, s.arbiter = .granted .give made ∨ (made = 0 ∧ s.nextRun = some .give) →
       ∃ u, exec .giveStep s = .next (poolChanged u) ∧
       u = { s with
         store := u.store, arbiter := .free, owners := u.owners
         pool := { s.pool with
           head := if s.pool.count = 0 then some g.position else s.pool.head
           tail := some g.position, count := s.pool.count + 1
           give := if last then none else some (next true) }
         reports := (told true).reports, officeDirty := (told true).officeDirty } ∧
       u.owner g.position = .pool ∧ (∀ b, b ≠ g.position → u.owner b = s.owner b) ∧
       ∀ a : Address, u.readStore a = linked made a) ∧
     (s.pool.take = none → s.poolUnitIdle = true → s.owner g.position ≠ .processor →
       exec .giveStep s = .next { s with
         pool := { s.pool with give := if last then none else some (next false) }
         reports := (told false).reports, officeDirty := (told false).officeDirty })))

/-- POOL_RESERVE_WRITE: the word passes to store and to its shadow with its written mark, and the suspension
condition is judged anew (R76, R160).
The suspension condition, judged: it is true exactly while the pool count is below the reserve, values above 3584
read as 3584, or fewer than two records are FREE; only its end does more, waking the QUIET dialogues of party
circuits in ascending order (R76, R122). The order among circuits is the model's choice (log 22).
After a change of the pool the take for the head of the waiting list begins, where the pool holds a block and no take
is outstanding, and the suspension condition is judged (R41, R76); that order is the model's reading (log 32). -/
def Obligations.SuspensionFollowsReservePoolAndTable : Prop :=
  (
  ∀ (v : Word) (s : State), s.granted → s.mapsLawful →
    ∃ u, exec (.poolReserveWrite v) s = .next (judgeSuspension u) ∧
    u = { s with store := u.store, arbiter := .granted .passage 0, shadow := u.shadow } ∧
    s.wroteWord u (s.relayAddress 0) v ∧ u.shadowAt 0 = v ∧
    ∀ o, o ≠ 0 → u.shadowAt o = s.shadowAt o) ∧
  (
  ∀ s : State,
    (let condition := decide (s.pool.count < min (s.shadowAt 0).toNat 3584) || decide (s.freeCount < 2)
     let judged : State := { s with pool := { s.pool with suspension := condition } }
     ((s.pool.suspension = false ∨ condition = true) → judgeSuspension s = judged) ∧
     (s.pool.suspension = true → condition = false →
       judgeSuspension s =
         allCircuits.foldl (fun v c => if v.isParty c then judgeParty c v else v) judged))) ∧
  (
  ∀ s : State,
    (∀ r rest, s.pool.take = none → s.writer.waiting = r :: rest → 0 < s.pool.count →
      poolChanged s = judgeSuspension { s with pool := { s.pool with take := some r } }) ∧
    (s.pool.take ≠ none ∨ s.writer.waiting = [] ∨ s.pool.count = 0 → poolChanged s = judgeSuspension s))

/-! ### Posting and the message table -/

/-- POST_TRIGGER refused: the first check that fails, in the order BUSY, TABLE_FULL, BAD_PRECEDENCE, BAD_CODES, BAD_CHAIN,
sets the last post outcome and raises POST_REFUSED with tag word 0; no record is granted (R59). That a
refusal BUSY shows BUSY during the walk follows the rule, where the worked example shows none: the model's choice (log
48).
POST_TRIGGER accepted: the lowest FREE record becomes POSTING, held and posted, with the precedence, the origin code
and the codes of the post record, a code repeated passed over; the walk begins at the head block, and the last
post outcome is none (R46, R59, R60). -/
def Obligations.PostTriggerIsCheckedAndBeginsTheWalk : Prop :=
  (
  ∀ (v : Word) (s : State), s.granted → s.mapsLawful →
    (let word : Nat → Word := fun w => s.shadowAt (0x20 + w)
     let codes := lowByte (word 2)
     let letters : Word → Prop := fun x => 6 ≤ highByte x ∧ highByte x ≤ 31 ∧ 6 ≤ lowByte x ∧ lowByte x ≤ 31
     let codesGood : Prop := 1 ≤ codes ∧ codes ≤ 8 ∧ letters (word 3) ∧ ∀ i, i < codes → letters (word (4 + i))
     let chainGood : Prop := 1 ≤ (word 1).toNat ∧ (word 1).toNat ≤ 3584 ∧ (word 0).toNat < 3584
     let refused : PostOutcome → Prop := fun outcome => ∃ t, exec (.postTrigger v) s = .next t ∧
       t = { s with
         store := t.store, arbiter := .granted .passage 0, postOutcome := outcome
         reports := (s.raise .office 0 (.postRefused outcome)).reports
         officeDirty := (s.raise .office 0 (.postRefused outcome)).officeDirty ||
           decide (outcome ≠ s.postOutcome) } ∧
       s.wroteWord t (s.relayAddress 0x2C) v
     (s.walk ≠ none → refused .busy) ∧
     (s.walk = none → s.lowestFree = none → refused .tableFull) ∧
     (s.walk = none → s.lowestFree ≠ none → 3 < highByte (word 2) → refused .badPrecedence) ∧
     (s.walk = none → s.lowestFree ≠ none → highByte (word 2) ≤ 3 → ¬ codesGood → refused .badCodes) ∧
     (s.walk = none → s.lowestFree ≠ none → highByte (word 2) ≤ 3 → codesGood → ¬ chainGood →
       refused .badChain))) ∧
  (
  ∀ (v : Word) (s : State) (r : RecordIdx) (p : Precedence), s.granted → s.mapsLawful → s.suspensionLawful →
    s.walk = none → s.lowestFree = some r → s.postFieldRefusal = none →
    precedenceOf (highByte (s.shadowAt 0x22)) = some p →
    ∃ t, exec (.postTrigger v) s = .next t ∧
    t = { s with
      store := t.store, arbiter := .granted .passage 0
      messages := t.messages, messageDirty := t.messageDirty, officeDirty := true
      pool := { s.pool with suspension := t.suspendedNow }, postOutcome := .none
      walk := some { record := r, head := (s.shadowAt 0x20).toNat, wanted := (s.shadowAt 0x21).toNat
                     taken := 0, sum := 0, block := (s.shadowAt 0x20).toNat, ending := false } } ∧
    s.wroteWord t (s.relayAddress 0x2C) v ∧
    (∀ r' : RecordIdx, r' ≠ r → t.message r' = s.message r') ∧
    t.message r = { Message.free (s.message r).generation with
      state := .posting, origin := some .posted, hold := true
      flags := { MessageFlags.clear with posted := true }, precedence := some p
      originCode := some (codeOf (s.shadowAt 0x23))
      destinations := (distinctCodes (s.postCodes.map codeOf)).map .code })

/-- WALK_READ_DONE on a PROCESSOR block: it becomes the record's, and the counts go on; the walk moves to the block
its link names, or, at the block count, to its closing write (R61, R68, R75).
WALK_READ_DONE refusing the walk: a block not PROCESSOR (NOT_KEPT), a link past the block area before the count
is reached (BAD_CHAIN), or a sum above the maximum (LENGTH) rolls it back. Every block of the record is PROCESSOR
again, POST_REFUSED carries the record's tag, and the record is FREE under its next generation (R61, R62, R63,
R75). On a chain that loops back this takes in the block that caused NOT_KEPT (the model's choice, log 40). The
suspension condition is then judged.
WALK_END_WRITE_DONE: the last block's link is written 0xFFFF, the record's chain and text length are filled in, the
post is accepted, and the message is routed by the state then standing, MESSAGE_POSTED carrying its tag (R62).
It rests on the model's reading in log 10. -/
def Obligations.WalkTakesItsChainOrRollsBack : Prop :=
  (
  ∀ (w : Walk) (s : State), s.readDue .walkRead →
    s.walk = some w → s.owner w.block = .processor → s.mapsLawful →
    (let count := min (lowByte (s.readRelay (offBlock w.block 1))) 60
     let link := (s.readRelay (offBlock w.block 0)).toNat
     let counted : Walk := { w with taken := w.taken + 1, sum := w.sum + count }
     let took : Walk → Prop := fun next => ∃ t, exec .walkReadDone s = .next t ∧
       t = { s with arbiter := .free, owners := t.owners, walk := some next } ∧
       t.owner w.block = .message w.record ∧ ∀ b, b ≠ w.block → t.owner b = s.owner b
     (w.taken + 1 ≠ w.wanted → link < 3584 → took { counted with block := link }) ∧
     (w.taken + 1 = w.wanted → w.sum + count ≤ s.maxLength → took { counted with ending := true }))) ∧
  (
  ∀ (w : Walk) (s : State), s.readDue .walkRead →
    s.walk = some w → s.mapsLawful → (s.message w.record).state = .posting →
    (let count := min (lowByte (s.readRelay (offBlock w.block 1))) 60
     let link := (s.readRelay (offBlock w.block 0)).toNat
     let rolled : PostOutcome → Prop := fun outcome =>
       ∃ u, exec .walkReadDone s = .next (judgeSuspension u) ∧
       u = { s with
         arbiter := .free
         owners := u.owners, messages := u.messages, messageDirty := u.messageDirty, officeDirty := true
         walk := none, postOutcome := outcome
         reports := (s.raise .office (s.tag w.record) (.postRefused outcome)).reports } ∧
       (∀ r : RecordIdx, r ≠ w.record → u.message r = s.message r) ∧
       u.message w.record =
         Message.free (nextGeneration w.record (s.message w.record).generation) ∧
       ∀ b, u.owner b = if s.owner b = .message w.record then .processor else s.owner b
     (s.owner w.block ≠ .processor → rolled .notKept) ∧
     (s.owner w.block = .processor → w.taken + 1 ≠ w.wanted → 3584 ≤ link → rolled .badChain) ∧
     (s.owner w.block = .processor → w.taken + 1 = w.wanted → s.maxLength < w.sum + count → rolled .length))) ∧
  (
  ∀ (w : Walk) (s : State), s.runDue .walkEnd → s.walk = some w → s.mapsLawful →
    ∃ u, exec .walkEndWriteDone s = .next (routeRecord w.record .office (fun _ => .messagePosted) u) ∧
    u = { s with
      store := u.store, arbiter := .free, messages := u.messages, messageDirty := u.messageDirty
      officeDirty := true, walk := none, postOutcome := .accepted } ∧
    s.wroteWord u (s.relayAddress (offBlock w.block 0)) 0xFFFF ∧
    (∀ r : RecordIdx, r ≠ w.record → u.message r = s.message r) ∧
    u.message w.record = { s.message w.record with
      head := some w.head, tail := some w.block, blockCount := w.wanted, textLength := w.sum })

/-- RELEASE_ORDER: refused STALE, FREE, FILLING or NO_HOLD by the first check that fails; on a ROUTED record with a
delivery still pending it clears the hold; on a DONE record it frees it: MESSAGE_FREED with the tag it had, its
chain to the pool tail, and the next generation (R45, R52, R53, R73).
It rests on the model's reading in log 32. -/
def Obligations.ReleaseOrderFreesADoneMessage : Prop :=
  ∀ (tag : Word) (s : State), s.granted → s.mapsLawful →
    (let r := tagRecord tag
     let m := s.message r
     let refused : ReleaseRefusal → Prop := fun reason => ∃ t, exec (.releaseOrder tag) s = .next t ∧
       t = { s with
         store := t.store, arbiter := .granted .passage 0
         reports := (s.raise .office tag (.releaseRefused reason)).reports
         officeDirty := (s.raise .office tag (.releaseRefused reason)).officeDirty } ∧
       s.wroteWord t (s.relayAddress 0x2F) tag
     (tagGeneration tag ≠ m.generation → refused .stale) ∧
     (tagGeneration tag = m.generation → m.state = .free → refused .free) ∧
     (tagGeneration tag = m.generation → m.state = .filling ∨ m.state = .posting → refused .filling) ∧
     (tagGeneration tag = m.generation → m.state = .routed ∨ m.state = .done → m.hold = false →
       refused .noHold) ∧
     (tagGeneration tag = m.generation → m.state = .routed → m.hold = true → m.hasPending = true →
       ∃ t, exec (.releaseOrder tag) s = .next t ∧
       t = { s with
         store := t.store, arbiter := .granted .passage 0
         messages := t.messages, messageDirty := t.messageDirty } ∧
       s.wroteWord t (s.relayAddress 0x2F) tag ∧
       (∀ r' : RecordIdx, r' ≠ r → t.message r' = s.message r') ∧ t.message r = { m with hold := false }) ∧
     (tagGeneration tag = m.generation → m.state = .done → m.hold = true →
       ∃ u, exec (.releaseOrder tag) s = .next (poolChanged u) ∧
       u = { s with
         store := u.store, arbiter := .granted .passage 0
         messages := u.messages, messageDirty := u.messageDirty, officeDirty := true
         owners := u.owners, reports := (s.raise .office (s.tag r) .messageFreed).reports
         pool := (match m.head with
           | none => s.pool
           | some h => s.pool.append h m.tail m.blockCount) } ∧
       s.wroteWord u (s.relayAddress 0x2F) tag ∧
       (∀ r' : RecordIdx, r' ≠ r → u.message r' = s.message r') ∧
       u.message r = Message.free (nextGeneration r m.generation) ∧
       ∀ b, u.owner b =
         if m.head.isSome ∧ s.owner b = .message r then .pool else s.owner b))

/-- CANCEL_ORDER: refused as a release is, but for NO_HOLD; it leaves a DONE record as it is; on a ROUTED record with
no delivery ACTIVE and its hold standing every QUEUED delivery is CANCELLED and leaves its queue, whose
queued-character count falls by the sent lengths so removed, and the record is DONE (R48, R54, R97).
On a ROUTED record with one delivery ACTIVE and none QUEUED it acts by the phase of that transmission: in the heading,
the destination line, the text or the trailer a cancel order is pending there; in a cancel line the cause becomes the
order; on a party circuit that awaits the receipt the delivery is CANCELLED at once, the dialogue is QUIET and the
scheduler judges (R55, R114). -/
def Obligations.CancelOrderEndsQueuedDeliveries : Prop :=
  ∀ (tag : Word) (s : State), s.granted → s.mapsLawful →
    (let r := tagRecord tag
     let m := s.message r
     let refused : ReleaseRefusal → Prop := fun reason => ∃ t, exec (.cancelOrder tag) s = .next t ∧
       t = { s with
         store := t.store, arbiter := .granted .passage 0
         reports := (s.raise .office tag (.releaseRefused reason)).reports
         officeDirty := (s.raise .office tag (.releaseRefused reason)).officeDirty } ∧
       s.wroteWord t (s.relayAddress 0x30) tag
     (tagGeneration tag ≠ m.generation → refused .stale) ∧
     (tagGeneration tag = m.generation → m.state = .free → refused .free) ∧
     (tagGeneration tag = m.generation → m.state = .filling ∨ m.state = .posting → refused .filling) ∧
     (tagGeneration tag = m.generation → m.state = .done → ∃ t, exec (.cancelOrder tag) s = .next t ∧
       t = { s with store := t.store, arbiter := .granted .passage 0 } ∧
       s.wroteWord t (s.relayAddress 0x30) tag) ∧
     (tagGeneration tag = m.generation → m.state = .routed → m.hold = true →
       (∀ k : SlotIdx, ∀ d, m.slots[k] = some d → d.state ≠ .active) →
       (∀ c : Circuit, s.isDiverting c = false) →
       ∃ t, exec (.cancelOrder tag) s = .next t ∧
       t = { s with
         store := t.store, arbiter := .granted .passage 0
         messages := t.messages, messageDirty := t.messageDirty
         circuits := t.circuits, circuitDirty := t.circuitDirty } ∧
       s.wroteWord t (s.relayAddress 0x30) tag ∧
       (∀ r' : RecordIdx, r' ≠ r → t.message r' = s.message r') ∧
       t.message r = { m with
         state := .done
         slots := Vector.ofFn fun k : SlotIdx => (m.slots[k]).map fun d =>
           if d.state = .queued then { d with state := .cancelled } else d } ∧
       ∀ c : Circuit, t.circuit c = { s.circuit c with queues := (t.circuit c).queues } ∧
         ∀ p, ((t.queue c p).entries = (s.queue c p).entries.filter fun e =>
           !(decide (p = m.rank) && decide (e.record = r) &&
             (m.slots[e.slot]).any fun d => d.state = .queued && d.circuit = c)) ∧
           (t.queue c p).count = (s.queue c p).count -
             (if p = m.rank then ((List.finRange 8).map fun k : SlotIdx =>
               if (m.slots[k]).any fun d => d.state = .queued && d.circuit = c then
                 (((s.queue c p).entries.find? fun e => decide (e.record = r) && decide (e.slot = k)).map
                   fun e => e.sentLength).getD 0
               else 0).sum
             else 0)) ∧
     (∀ k d, tagGeneration tag = m.generation → m.state = .routed → s.delivery r k = some d → d.state = .active →
       (∀ j : SlotIdx, j ≠ k → ∀ d', s.delivery r j = some d' → d'.state ≠ .queued ∧ d'.state ≠ .active) →
       (let c := d.circuit
        let x := s.circuit c
        let sends : SendController → Prop := fun send => ∃ t, exec (.cancelOrder tag) s = .next t ∧
          t = { s with
            store := t.store, arbiter := .granted .passage 0
            circuits := t.circuits, circuitDirty := t.circuitDirty } ∧
          s.wroteWord t (s.relayAddress 0x30) tag ∧ s.othersKept t c ∧ t.circuit c = { x with send := send }
        (x.send.phase = .heading ∨ x.send.phase = .dest ∨ x.send.phase = .text ∨ x.send.phase = .trailer →
          sends { x.send with pendingCancel := true }) ∧
        (x.send.phase = .cancel → sends { x.send with cause := some .order }) ∧
        (x.send.phase = .receipt → x.send.active = some (r, k) → s.isParty c = true →
          x.control.holdPending = false → m.hold = true →
          ∃ u, exec (.cancelOrder tag) s = .next (settle r (judge c u)) ∧
          u = { s with
            store := u.store, arbiter := .granted .passage 0
            circuits := u.circuits, circuitDirty := u.circuitDirty
            messages := u.messages, messageDirty := u.messageDirty } ∧
          s.wroteWord u (s.relayAddress 0x30) tag ∧ s.othersKept u c ∧
          u.circuit c = { x with
            send := .none
            dialogue := { x.dialogue with
              state := .quiet, answerTimer := none, lineEndWait := false, pollReply := none } } ∧
          (∀ r' : RecordIdx, r' ≠ r → u.message r' = s.message r') ∧
          u.message r = { m with
            state := .done, slots := m.slots.set k (some { d with state := .cancelled }) }))))

/-- What the message table does after an event on a record (R48, R52): a ROUTED record with no delivery QUEUED or
ACTIVE is DONE; a record that is DONE with its hold clear is freed; any other is left as it is.
The chain that a freed record returns: in an empty pool it is the whole pool; else its tail is the pool tail, the count
rises by its blocks, and a write of its head into the link of the old tail is pending (R73). The generation that a
freed record takes: the next, 511 followed by 0, or by 1 for record 0 (R45).
It rests on the model's reading in log 32. -/
def Obligations.SettleMovesARecordOn : Prop :=
  (
  ∀ (r : RecordIdx) (s : State),
    (let m := s.message r
     let finished : Prop := m.state = .routed ∧
       ∀ k : SlotIdx, ∀ d, m.slots[k] = some d → d.state ≠ .queued ∧ d.state ≠ .active
     (¬ finished → (m.state ≠ .done ∨ m.hold = true) → settle r s = s) ∧
     (finished → m.hold = true →
       settle r s = { s with
         messages := s.messages.set r { m with state := .done }
         messageDirty := s.messageDirty.set r true }) ∧
     (finished ∨ m.state = .done → m.hold = false → s.mapsLawful → ∃ u, settle r s = poolChanged u ∧
       u = { s with
         messages := u.messages, messageDirty := u.messageDirty, officeDirty := true, owners := u.owners
         reports := (s.raise .office (s.tag r) .messageFreed).reports
         pool := (match m.head with
           | none => s.pool
           | some h => s.pool.append h m.tail m.blockCount) } ∧
       (∀ r' : RecordIdx, r' ≠ r → u.message r' = s.message r') ∧
       u.message r = Message.free (nextGeneration r m.generation) ∧
       ∀ b, u.owner b = if m.head.isSome ∧ s.owner b = .message r then .pool else s.owner b))) ∧
  (
  ∀ (p : Pool) (head blocks : Nat) (tail : Option Nat),
    (p.count = 0 → p.append head tail blocks = { p with head := some head, tail := tail, count := blocks }) ∧
    (∀ old, p.count ≠ 0 → p.tail = some old → p.append head tail blocks = { p with
      tail := tail, count := p.count + blocks, returns := p.returns ++ [(old, head)] })) ∧
  (
  ∀ (r : RecordIdx) (g : Nat), g ≤ 511 →
    nextGeneration r g = if g < 511 then g + 1 else if r = 0 then 1 else 0)

/-! ### Routing and queues -/

/-- The queued characters Q at a precedence are the sum of the counts of the queues at it and above it, T highest
and S lowest.
The character time of a circuit, in tenths of a millisecond, is read by the transmitter's effective codes and is
half-units × 500,000 / baud in hundredths, rounded half up, with 14, 15 or 16 half-units to the character. -/
def Obligations.BacklogInputsAreQueuesAndCharacterTime : Prop :=
  (
  ∀ (s : State) (c : Circuit),
    (let count : Precedence → Nat := fun p => (s.queue c p).count
     s.queuedCharacters c .t = count .t ∧
     s.queuedCharacters c .u = count .t + count .u ∧
     s.queuedCharacters c .r = count .t + count .u + count .r ∧
     s.queuedCharacters c .s = count .t + count .u + count .r + count .s)) ∧
  (
  ∀ (s : State) (c : Circuit),
    (let baud : Fin 6 → Nat := fun k => [4545, 5000, 5688, 7420, 7500, 10000].getD k.val 0
     let speed := (s.circuit c).line.txSpeed
     let halfUnits := 14 + (s.circuit c).line.txStop.val
     s.tc c = (2 * halfUnits * 500000 + baud speed) / (2 * baud speed)))

/-- The backlog estimate is the product of C = Q + R and the character time over 1000, any remainder raising it by
one, saturated at 65535. R is 0 with no active delivery, the remaining count with one, and 9 where a train order
would preempt it (R83, R84, R85). It would preempt exactly where the active delivery is of precedence R or S,
preemption is enabled, the phase is HEADING, DEST or TEXT, a party dialogue is DELIVERING and the circuit is not READY
with hold pending. A pending cancel order changes nothing here: that is the model's choice (log 46), which follows the
list of conditions given with the estimate, where the rule of preemption names its own as deciding. -/
def Obligations.BacklogIsTheSaturatedCeiling : Prop :=
  ∀ (s : State) (c : Circuit) (p : Precedence),
    (let r : Nat := if p = .t ∧ s.preemptable c = true then 9
       else if (s.circuit c).send.active = none then 0 else (s.circuit c).send.remaining
     let product := (s.queuedCharacters c p + r) * s.tc c
     s.backlog c p ≤ 65535 ∧
     (s.backlog c p < 65535 → product ≤ 1000 * s.backlog c p ∧ 1000 * s.backlog c p < product + 1000) ∧
     (s.backlog c p = 65535 ↔ 1000 * 65534 < product) ∧
     (s.preemptable c = true ↔
       ∃ m k, (s.circuit c).send.active = some (m, k) ∧
         ((s.message m).rank = .r ∨ (s.message m).rank = .s) ∧
         (s.circuit c).control.effective.preemption = true ∧
         ((s.circuit c).send.phase = .heading ∨ (s.circuit c).send.phase = .dest ∨
           (s.circuit c).send.phase = .text) ∧
         (s.isParty c = true → (s.circuit c).dialogue.state = .delivering) ∧
         ¬ ((s.circuit c).control.state = .ready ∧ (s.circuit c).control.holdPending = true)))

/-- The choice between the targets of a CIRCUIT entry: a diverting primary gives way to an alternate that does not
divert, else to intercept; without such an alternate the primary is taken; of two, the one available, and of two
available the alternate exactly where the primary's backlog is above the threshold, in units of ten seconds, and
the alternate's is less (R81, R86). -/
def Obligations.RouteUnitChoosesByAvailabilityAndBacklog : Prop :=
  ∀ (s : State) (p : Precedence) (pt : Target) (alternate : Option Target) (threshold : Nat),
    (let present : Prop := ∃ a, alternate = some a ∧ s.isDiverting a.circuit = false
     (s.isDiverting pt.circuit = true → ¬ present → s.chooseTarget p pt alternate threshold = .intercept) ∧
     (s.isDiverting pt.circuit = false → ¬ present → s.chooseTarget p pt alternate threshold = .target pt) ∧
     ∀ a, alternate = some a → s.isDiverting a.circuit = false →
       (s.isDiverting pt.circuit = true → s.chooseTarget p pt alternate threshold = .target a) ∧
       (s.isDiverting pt.circuit = false → s.normalTarget pt ≠ s.normalTarget a →
         (s.chooseTarget p pt alternate threshold = .target a ↔
           s.available a = true ∧
           (s.available pt = false ∨
            (100 * threshold < s.backlog pt.circuit p ∧
             s.backlog a.circuit p < s.backlog pt.circuit p))) ∧
         (s.chooseTarget p pt alternate threshold = .target pt ∨
          s.chooseTarget p pt alternate threshold = .target a)) ∧
       (s.isDiverting pt.circuit = false → s.normalTarget pt = s.normalTarget a →
         s.chooseTarget p pt alternate threshold = .target pt))

/-- A routing event places every destination position once, each by the one state the event found: in the local
set, in the intercept set, or in the code set of the one group of its target (R50, R86, R87).
The choice for one position: BAD_CODE goes to intercept; a code is looked up in the route table, whose entry is two
shadow words indexed by its two letters, and kind LOCAL is local, UNASSIGNED or the kind 3 intercept, and kind CIRCUIT
the choice between its targets, with word 1 read only where the alternate is present (R78, R79, R86). -/
def Obligations.EveryPositionIsPlacedOnce : Prop :=
  (
  ∀ (s : State) (m : Message), m.destinations.length ≤ 8 →
    (let result := s.routeMessage m
     (result.groups.map Prod.fst).Nodup ∧
     ∀ (i : Fin 8), ∀ d, m.destinations[i.val]? = some d →
       (result.localSet.getLsbD i.val = true ↔ s.choose m.rank d = .isLocal) ∧
       (result.interceptSet.getLsbD i.val = true ↔ s.choose m.rank d = .intercept) ∧
       (∀ t, s.choose m.rank d = .target t →
         ∃ g ∈ result.groups, g.1 = s.normalTarget t ∧ g.2.getLsbD i.val = true) ∧
       ∀ g ∈ result.groups,
         (g.2.getLsbD i.val = true ↔ ∃ t, s.choose m.rank d = .target t ∧ s.normalTarget t = g.1))) ∧
  (
  ∀ (s : State) (p : Precedence) (code : Code), 6 ≤ code.first.toNat → 6 ≤ code.second.toNat →
    (let entry := 0x800 + 2 * ((code.first.toNat - 6) * 26 + (code.second.toNat - 6))
     let field : Nat → Nat → Nat → Nat := fun w low width =>
       (s.shadowAt (entry + w)).toNat / 2 ^ low % 2 ^ width
     let target : Nat → Nat → Nat → Target := fun w circuit station =>
       ⟨Fin.ofNat 32 (field w circuit 5), Fin.ofNat 8 (field w station 3)⟩
     s.choose p .badCode = .intercept ∧
     (field 0 0 2 = 1 → s.choose p (.code code) = .isLocal) ∧
     (field 0 0 2 = 0 ∨ field 0 0 2 = 3 → s.choose p (.code code) = .intercept) ∧
     (field 0 0 2 = 2 → field 0 15 1 = 1 → s.choose p (.code code) =
       s.chooseTarget p (target 0 2 7) (some (target 1 0 5)) (field 1 8 8)) ∧
     (field 0 0 2 = 2 → field 0 15 1 = 0 → ∀ threshold, s.choose p (.code code) =
       s.chooseTarget p (target 0 2 7) none threshold)))

/-- The result of routing is taken in one event: the sets, the local flag and the receipt minute are written, each
group is a QUEUED delivery in the next EMPTY slot, at the tail of its circuit's queue with its sent length
L + 3n + 29 counted there, and the report is raised; then the circuits' schedulers judge and the record goes on
(R47, R50, R87, R97, R98).
That two deliveries for one party circuit join its queue in the order of their slots is the model's choice (log 50).
It rests on the model's reading in logs 22 and 50. -/
def Obligations.RoutingEventTakesTheWholeResult : Prop :=
  ∀ (r : RecordIdx) (place : Place) (report : Message → ReportKind) (s : State),
    (∀ k : SlotIdx, (s.message r).slots[k] = none) → (s.routeMessage (s.message r)).groups.length ≤ 8 →
    (let m := s.message r
     let result := s.routeMessage m
     let entry : (Target × PositionSet) × Nat → QueueEntry := fun g =>
       ⟨r, Fin.ofNat 8 g.2, m.textLength + 3 * codeCount g.1.2 + 29⟩
     ∃ u, routeRecord r place report s = settle r (result.groups.foldl (fun v g => judge g.1.circuit v) u) ∧
     u = { s with
       messages := u.messages, messageDirty := u.messageDirty
       circuits := u.circuits, circuitDirty := u.circuitDirty, officeDirty := u.officeDirty
       reports := (s.raise place (s.tag r) (report (u.message r))).reports } ∧
     (∀ r' : RecordIdx, r' ≠ r → u.message r' = s.message r') ∧
     u.message r = { m with
       localSet := result.localSet, interceptSet := result.interceptSet
       flags := { m.flags with isLocal := decide (result.localSet ≠ 0) }
       receiptMinute := some s.minute, state := if result.groups = [] then .done else .routed
       slots := Vector.ofFn fun k : SlotIdx => (result.groups[k.val]?).map fun g =>
         { state := .queued, circuit := g.1.circuit, station := g.1.station, codes := g.2
           attempts := 0, saved := none } } ∧
     ∀ c : Circuit, u.circuit c = { s.circuit c with queues := (u.circuit c).queues } ∧
       ∀ p, (let joined := if p = m.rank then
               (result.groups.zipIdx.filter fun g => decide (g.1.1.circuit = c)).map entry else []
             (u.queue c p).entries = (s.queue c p).entries ++ joined ∧
             (u.queue c p).count = (s.queue c p).count + (joined.map QueueEntry.sentLength).sum))

/-- A judgement of the send scheduler on a point circuit: READY with no hold pending and no diverting mark, in
phase NONE, the head of its highest-precedence queue that is not empty becomes ACTIVE: it leaves its queue, takes
the circuit's channel number, which advances past 999 to 1, and its heading and text fetch begin; in any other
case nothing happens (R96, R97, R99, R100, R102, R105). -/
def Obligations.PointSchedulerStartsTheHeadOfTheHighestQueue : Prop :=
  ∀ (c : Circuit) (s : State), s.isParty c = false →
    (let may : Prop := (s.circuit c).control.state = .ready ∧ (s.circuit c).control.holdPending = false ∧
       (s.circuit c).control.diverting = false ∧ (s.circuit c).send.phase = .idle
     (¬ may ∨ (∀ p, (s.queue c p).entries = []) → judge c s = s) ∧
     ∀ (p : Precedence) (e : QueueEntry) (rest : List QueueEntry) (d : Delivery), may →
       (s.queue c p).entries = e :: rest → (∀ q ∈ p.andAbove, q ≠ p → (s.queue c q).entries = []) →
       (s.message e.record).rank = p → s.delivery e.record e.slot = some d →
       (∀ e' ∈ rest, e'.names e.record e.slot = false) →
       (let x := s.circuit c
        let m := s.message e.record
        let t := judge c s
        t = { s with
          circuits := t.circuits, circuitDirty := t.circuitDirty
          messages := t.messages, messageDirty := t.messageDirty } ∧
        s.othersKept t c ∧
        t.circuit c = { x with
          queues := x.queues.put p { entries := rest, count := (s.queue c p).count - e.sentLength }
          outgoing := if x.outgoing = 999 then 1 else x.outgoing + 1
          send := {
            active := some (e.record, e.slot), phase := .heading, position := 0, remaining := e.sentLength
            channel := some x.outgoing, cause := none, pendingCancel := false, fifo := []
            fetch := (match m.head with
              | none => none
              | some b => if m.textLength = 0 then none
                  else some { block := b, toFetch := m.textLength, run := none }) } } ∧
        (∀ r' : RecordIdx, r' ≠ e.record → t.message r' = s.message r') ∧
        t.message e.record = { m with
          slots := m.slots.set e.slot (some { d with state := .active, saved := some x.outgoing }) }))

/-- The party scheduler's order: with the circuit free to start and the dialogue QUIET, a train order for an
ANSWERING station is selected first; then a poll whose timer has run out, unless polling is suspended; then a
U, R or S delivery; then a poll; and with none of them nothing happens (R121, R122, R123).
A select puts the dialogue in CALLING, a poll in POLL_SENDING with its timer loaded anew and the rotation past the
station; either shows the station as the last. The five characters of the sequence follow each other, and with the
fifth the wait for the station begins, its timer loaded, the match position 0 and the case LETTERS (R118, R124, R130).
It rests on the model's reading in log 1. -/
def Obligations.PartySchedulerChoosesInOrder : Prop :=
  (
  ∀ (c : Circuit) (s : State), s.isParty c = true →
    (let d := (s.circuit c).dialogue
     let free : Prop := s.mayStart c = true ∧ d.state = .quiet
     let poll := if s.pool.suspension then none else s.nextPoll c
     (¬ free → judge c s = s) ∧
     (∀ e t, free → s.firstAnswering c .t = some e → s.entryStation e = some t →
       judge c s = selectStation c t s) ∧
     (∀ t, free → s.firstAnswering c .t = none → d.pollExpired = true → poll = some t →
       judge c s = pollStation c t s) ∧
     (∀ e t, free → s.firstAnswering c .t = none → (d.pollExpired = false ∨ poll = none) →
       s.lowerChoice c = some e → s.entryStation e = some t → judge c s = selectStation c t s) ∧
     (∀ t, free → s.firstAnswering c .t = none → d.pollExpired = false → s.lowerChoice c = none →
       poll = some t → judge c s = pollStation c t s) ∧
     (free → s.firstAnswering c .t = none → s.lowerChoice c = none → poll = none → judge c s = s))) ∧
  (
  ∀ (c : Circuit) (n : StationIdx) (s : State),
    (let x := s.circuit c
     s.onlyCircuit (selectStation c n s) c [] ∧
     (selectStation c n s).circuit c = { x with dialogue := { x.dialogue with
       state := .calling, selected := some n, sequencePos := 0, lastStation := n } } ∧
     s.onlyCircuit (pollStation c n s) c [] ∧
     (pollStation c n s).circuit c = { x with dialogue := { x.dialogue with
       state := .pollSending, selected := some n, sequencePos := 0, lastStation := n, rotation := n + 1
       pollTimer := some (10 * x.control.effective.pollInterval), pollExpired := false } })) ∧
  (
  ∀ (c : Circuit) (n : StationIdx) (s : State) (char : RelayChar) (tick total : Nat),
    (s.circuit c).line.transmitter = .sending char tick total (some .dialogue) → total ≤ tick + 1 →
    s.isParty c = true → s.inService c = true → speedSettingInvalid (s.setting c 1) = false →
    (s.circuit c).send = .none → (s.circuit c).dialogue.selected = some n →
    ((s.circuit c).dialogue.state = .calling ∨ (s.circuit c).dialogue.state = .pollSending) →
    (let x := s.circuit c
     let d := x.dialogue
     let sequence : List RelayChar :=
       [5, 5, if d.state = .calling then 24 else 21, (s.station c n).first, (s.station c n).second]
     let stop := (stopOf (s.setting c 1)).getD x.line.txStop
     let line : Transmitter → LineUnit := fun transmitter => { x.line with
       txTicksDue := x.line.txTicksDue - 1, txSpeed := (speedOf (s.setting c 1)).getD x.line.txSpeed
       txStop := stop, transmitter := transmitter }
     ∃ t, exec (.characterBoundary c) s = .next t ∧ s.onlyCircuit t c [] ∧
     (∀ ch, sequence[d.sequencePos + 1]? = some ch →
       t.circuit c = { x with
         dialogue := { d with sequencePos := d.sequencePos + 1 }
         line := line (.sending ch 0 (characterTicks stop) (some .dialogue)) }) ∧
     (d.sequencePos = 4 →
       t.circuit c = { x with
         dialogue := { d with
           state := if d.state = .calling then .answerWait else .pollWait, sequencePos := 5
           answerTimer := some x.control.effective.answerTimeout, matchPos := 0, answerShift := .letters
           pollReply := none }
         line := line .idle })))

/-- DIVERT_STEP takes the head of a diverting circuit's highest queue that is not empty. A delivery of one code with no
other route goes to intercept: it leaves its queue and its slot, the two counts of the divert record rise, and
CODES_INTERCEPTED names the position; the record and the divert then go on (R90, R91, R92, R93, R94).
A delivery of one code with another route is made anew there: in the lowest EMPTY slot, which may be the slot just
emptied, QUEUED with no attempts, at the tail of the other circuit's queue with L + 3 + 29 characters.
A delivery of several codes has each of them placed in this way, and CODES_INTERCEPTED names those that went to
intercept; a code whose other target has a QUEUED delivery of the message joins it in its place, whose sent length and
whose queue's count rise by 3.
The other route of a code: of an entry of kind CIRCUIT, the alternate where the primary's circuit is the diverting one,
else the primary; none for another kind, for an alternate that is absent or on the same circuit, or for a target whose
circuit diverts; its station is taken as 0 unless the target's circuit is a party circuit (R80, R91). The end of the
divert, once the queues are empty: the mark is clear, DIVERT_DONE carries the two counts, and the scheduler judges
(R94, R123).
The ascending order of the codes, the lowest slot where two deliveries match, and
MESSAGE_FREED before DIVERT_DONE are the model's choices (logs 39, 41 and 43).
It rests on the model's reading in log 22. -/
def Obligations.DivertStepPlacesTheTakenCode : Prop :=
  (
  ∀ (c : Circuit) (p : Precedence) (e : QueueEntry) (rest : List QueueEntry) (d : Delivery) (i : Fin 8) (s : State),
    s.isDiverting c = true → (s.queue c p).entries = e :: rest →
    (∀ q ∈ p.andAbove, q ≠ p → (s.queue c q).entries = []) →
    (s.message e.record).rank = p → s.delivery e.record e.slot = some d → d.codes = onePosition i.val →
    (∀ e' ∈ rest, e'.names e.record e.slot = false) →
    (s.message e.record).interceptSet.getLsbD i.val = false →
    ((s.message e.record).destinations[i.val]?.bind (s.otherTarget c)) = none →
    ∃ u : State, exec (.divertStep c) s =
      .next ((u.queuedCircuits e.record).foldl (fun v t => judge t v) (divertEnd c (settle e.record u))) ∧
    (let told := s.raise (.circuit c none) (s.tag e.record) (.codesIntercepted (onePosition i.val))
     u = { s with
       circuits := u.circuits, circuitDirty := u.circuitDirty
       messages := u.messages, messageDirty := u.messageDirty
       reports := told.reports, officeDirty := told.officeDirty } ∧
     s.othersKept u c ∧
     u.circuit c = { s.circuit c with
       queues := (s.circuit c).queues.put p { entries := rest, count := (s.queue c p).count - e.sentLength }
       divert := { taken := (s.circuit c).divert.taken + 1
                   intercepted := (s.circuit c).divert.intercepted + 1 } } ∧
     (∀ r' : RecordIdx, r' ≠ e.record → u.message r' = s.message r') ∧
     u.message e.record = { s.message e.record with
       slots := (s.message e.record).slots.set e.slot none
       interceptSet := (s.message e.record).interceptSet ||| onePosition i.val })) ∧
  (
  ∀ (c : Circuit) (p : Precedence) (e : QueueEntry) (rest : List QueueEntry) (d : Delivery) (i : Fin 8)
    (other : Target) (k : SlotIdx) (s : State),
    s.isDiverting c = true → (s.queue c p).entries = e :: rest →
    (∀ q ∈ p.andAbove, q ≠ p → (s.queue c q).entries = []) →
    (s.message e.record).rank = p → s.delivery e.record e.slot = some d → d.codes = onePosition i.val →
    (∀ e' ∈ rest, e'.names e.record e.slot = false) →
    ((s.message e.record).destinations[i.val]?.bind (s.otherTarget c)) = some other →
    (∀ j : SlotIdx, j ≠ e.slot → ∀ d', s.delivery e.record j = some d' →
      ¬ (d'.state = .queued ∧ d'.circuit = other.circuit)) →
    (k = e.slot ∨ s.delivery e.record k = none) → (∀ j : SlotIdx, j < k → j ≠ e.slot ∧ s.delivery e.record j ≠ none) →
    ∃ u : State, exec (.divertStep c) s =
      .next ((u.queuedCircuits e.record).foldl (fun v t => judge t v) (divertEnd c (settle e.record u))) ∧
    (let m := s.message e.record
     let length := m.textLength + 3 + 29
     let queue := s.queue other.circuit p
     other.circuit ≠ c ∧
     u = { s with
       circuits := u.circuits, circuitDirty := u.circuitDirty
       messages := u.messages, messageDirty := u.messageDirty } ∧
     (∀ c' : Circuit, c' ≠ c → c' ≠ other.circuit → u.circuit c' = s.circuit c') ∧
     u.circuit c = { s.circuit c with
       queues := (s.circuit c).queues.put p { entries := rest, count := (s.queue c p).count - e.sentLength }
       divert := { (s.circuit c).divert with taken := (s.circuit c).divert.taken + 1 } } ∧
     u.circuit other.circuit = { s.circuit other.circuit with
       queues := (s.circuit other.circuit).queues.put p
         { entries := queue.entries ++ [⟨e.record, k, length⟩], count := queue.count + length } } ∧
     (∀ r' : RecordIdx, r' ≠ e.record → u.message r' = s.message r') ∧
     u.message e.record = { m with slots := (m.slots.set e.slot none).set k (some
       { state := .queued, circuit := other.circuit, station := other.station, codes := onePosition i.val
         attempts := 0, saved := none }) })) ∧
  (
  ∀ (c : Circuit) (p : Precedence) (e : QueueEntry) (rest : List QueueEntry) (d : Delivery) (s : State),
    s.isDiverting c = true → (s.queue c p).entries = e :: rest →
    (∀ q ∈ p.andAbove, q ≠ p → (s.queue c q).entries = []) →
    (s.message e.record).rank = p → s.delivery e.record e.slot = some d →
    (∀ e' ∈ rest, e'.names e.record e.slot = false) →
    ∃ u : State,
    (let v := ((List.range 8).filter fun i => d.codes.getLsbD i).foldl (divertCode c e.record) u
     let gone := d.codes &&& (v.message e.record).interceptSet &&& ~~~(s.message e.record).interceptSet
     let told := if gone = 0 then v else v.raise (.circuit c none) (s.tag e.record) (.codesIntercepted gone)
     exec (.divertStep c) s =
       .next ((v.queuedCircuits e.record).foldl (fun w t => judge t w) (divertEnd c (settle e.record told)))) ∧
    u = { s with
      circuits := u.circuits, circuitDirty := u.circuitDirty
      messages := u.messages, messageDirty := u.messageDirty } ∧
    s.othersKept u c ∧
    u.circuit c = { s.circuit c with
      queues := (s.circuit c).queues.put p { entries := rest, count := (s.queue c p).count - e.sentLength }
      divert := { (s.circuit c).divert with taken := (s.circuit c).divert.taken + 1 } } ∧
    (∀ r' : RecordIdx, r' ≠ e.record → u.message r' = s.message r') ∧
    u.message e.record = { s.message e.record with slots := (s.message e.record).slots.set e.slot none }) ∧
  (
  ∀ (c : Circuit) (r : RecordIdx) (i : Nat) (s : State),
    (let m := s.message r
     let t := divertCode c r s i
     let other := m.destinations[i]?.bind (s.otherTarget c)
     let matching : Target → SlotIdx → Prop := fun target k =>
       ∃ d, s.delivery r k = some d ∧ d.state = .queued ∧ d.circuit = target.circuit ∧
         (s.isParty target.circuit = true → d.station = target.station)
     t = { s with
       circuits := t.circuits, circuitDirty := t.circuitDirty
       messages := t.messages, messageDirty := t.messageDirty } ∧
     (∀ r' : RecordIdx, r' ≠ r → t.message r' = s.message r') ∧
     (other = none → s.othersKept t c ∧
       t.circuit c = { s.circuit c with
         divert := { (s.circuit c).divert with intercepted := (s.circuit c).divert.intercepted + 1 } } ∧
       t.message r = { m with interceptSet := m.interceptSet ||| onePosition i }) ∧
     (∀ target k d, other = some target → matching target k → (∀ j : SlotIdx, j < k → ¬ matching target j) →
       s.delivery r k = some d → s.othersKept t target.circuit ∧
       t.circuit target.circuit = { s.circuit target.circuit with
         queues := (s.circuit target.circuit).queues.put m.rank
           { entries := (s.queue target.circuit m.rank).entries.map fun e =>
               if e.record = r ∧ e.slot = k then { e with sentLength := e.sentLength + 3 } else e
             count := (s.queue target.circuit m.rank).count + 3 } } ∧
       t.message r = { m with slots := m.slots.set k (some { d with codes := d.codes ||| onePosition i }) }) ∧
     (∀ target k, i < 8 → other = some target → (∀ j, ¬ matching target j) → s.delivery r k = none →
       (∀ j : SlotIdx, j < k → s.delivery r j ≠ none) → s.othersKept t target.circuit ∧
       t.circuit target.circuit = { s.circuit target.circuit with
         queues := (s.circuit target.circuit).queues.put m.rank
           { entries := (s.queue target.circuit m.rank).entries ++ [⟨r, k, m.textLength + 3 + 29⟩]
             count := (s.queue target.circuit m.rank).count + (m.textLength + 3 + 29) } } ∧
       t.message r = { m with slots := m.slots.set k (some
         { state := .queued, circuit := target.circuit, station := target.station, codes := onePosition i
           attempts := 0, saved := none }) }))) ∧
  (
  ∀ (c : Circuit) (code : Code) (s : State),
    (let placed : Target → Option Target := fun t =>
       if s.isDiverting t.circuit then none
       else some ⟨t.circuit, if s.isParty t.circuit then t.station else 0⟩
     s.otherTarget c .badCode = none ∧
     (s.route code = .unassigned ∨ s.route code = .isLocal → s.otherTarget c (.code code) = none) ∧
     ∀ primary alternate threshold, s.route code = .circuit primary alternate threshold →
       (primary.circuit ≠ c → s.otherTarget c (.code code) = placed primary) ∧
       (primary.circuit = c → alternate = none → s.otherTarget c (.code code) = none) ∧
       (∀ a, primary.circuit = c → alternate = some a →
         s.otherTarget c (.code code) = if a.circuit = c then none else placed a))) ∧
  (
  ∀ (c : Circuit) (s : State),
    (s.isDiverting c = false ∨ (∃ p, (s.queue c p).entries ≠ []) → divertEnd c s = s) ∧
    (s.isDiverting c = true → (∀ p, (s.queue c p).entries = []) →
      (let counts := (s.circuit c).divert
       ∃ u, divertEnd c s = judge c u ∧
       s.onlyCircuit u c [(.circuit c none, 0, .divertDone counts.taken counts.intercepted)] ∧
       u.circuit c = { s.circuit c with control := { (s.circuit c).control with diverting := false } })))

/-! ### The store path, the reports and the mirror writer -/

/-- PROCESSOR_WRITE outside the relay area, to a plain word, or to a block the processor owns passes to store and does
nothing else; to a shadowed word that is no event for another block, it also takes the value into the shadow
(R157, R158, R159, R160, R165).
It rests on the model's reading in log 29. -/
def Obligations.ProcessorWritePassesToStore : Prop :=
  ∀ (a : Address) (v : Word) (s : State), s.granted → s.mapsLawful →
    (let o := a.toNat % 131072
     let inside : Prop := a.toNat / 131072 = s.strap.val
     let plain : Prop := (0x32 ≤ o ∧ o < 0x400) ∨ (0xD48 ≤ o ∧ o < 0x1000) ∨ (0x3000 ≤ o ∧ o < 0x4000)
     let owned : Prop := 0x4000 ≤ o ∧ s.owner ((o - 0x4000) / 32) = .processor
     let shadowed : Prop := (1 ≤ o ∧ o < 0x10) ∨ (0x20 ≤ o ∧ o < 0x2C) ∨ o = 0x2D ∨
       (0x400 ≤ o ∧ o < 0x800 ∧ o % 32 < 16 ∧ o % 32 ≠ 1) ∨ (0x800 ≤ o ∧ o < 0xD48)
     ((¬ inside ∨ plain ∨ owned) → ∃ t, exec (.processorWrite a v) s = .next t ∧
       t = { s with store := t.store, arbiter := .granted .passage 0 } ∧ s.wroteWord t a v) ∧
     (inside → shadowed → ∃ t, exec (.processorWrite a v) s = .next t ∧
       t = { s with store := t.store, arbiter := .granted .passage 0, shadow := t.shadow } ∧ s.wroteWord t a v ∧
       t.shadowAt o = v ∧ ∀ o', o' ≠ o → t.shadowAt o' = s.shadowAt o'))

/-- PROCESSOR_WRITE to a part-written word, or to a block that is POOL or MESSAGE, is suppressed: the store keeps what it
holds, the written value is not kept anywhere, the arbiter is FREE at once, and one WRITE_TRAP for the office, with
tag word 0 and the offset, is handed to the report writer (R165, R166, R167). -/
def Obligations.SuppressedWriteRaisesOneTrap : Prop :=
  ∀ (a : Address) (v : Word) (s : State), s.granted → a.toNat / 131072 = s.strap.val →
    (let o := a.toNat % 131072
     ((0x10 ≤ o ∧ o < 0x20) ∨ (0x400 ≤ o ∧ o < 0x800 ∧ 16 < o % 32) ∨ (0x1000 ≤ o ∧ o < 0x3000) ∨
       (0x4000 ≤ o ∧ s.owner ((o - 0x4000) / 32) ≠ .processor)) →
     exec (.processorWrite a v) s = .next { s with
       arbiter := .free
       reports := (s.raise .office 0 (.writeTrap o)).reports
       officeDirty := (s.raise .office 0 (.writeTrap o)).officeDirty })

/-- SPEED_SETTING_WRITE clears the SETTING_HELD mark, and a READY or HELD circuit compares at once, its receiver if it is
HUNTING and its transmitter if it is IDLE: a valid code is copied, each judged by itself, and an invalid one raises
SETTING_HELD and sets the mark (R11, R12, R160). -/
def Obligations.SpeedSettingWriteIsCompared : Prop :=
  ∀ (c : Circuit) (v : Word) (s : State), s.granted → s.mapsLawful →
    ∃ t, exec (.speedSettingWrite c v) s = .next t ∧
    (let l := (s.circuit c).line
     let rx : Prop := l.receiver = .hunting ∧ s.inService c = true
     let tx : Prop := l.transmitter = .idle ∧ s.inService c = true
     let held : Prop := (rx ∨ tx) ∧ speedSettingInvalid v = true
     let told := s.raiseAll (if held then [(.circuit c none, 0, .settingHeld)] else [])
     t = { s with
       store := t.store, arbiter := .granted .passage 0
       shadow := t.shadow, circuits := t.circuits, circuitDirty := t.circuitDirty
       reports := told.reports, officeDirty := told.officeDirty } ∧
     s.wroteWord t (s.relayAddress (0x400 + 32 * c.val + 1)) v ∧
     t.shadowAt (0x400 + 32 * c.val + 1) = v ∧
     (∀ o, o ≠ 0x400 + 32 * c.val + 1 → t.shadowAt o = s.shadowAt o) ∧ s.othersKept t c ∧
     t.circuit c = { s.circuit c with line := { l with
       settingHeld := decide held
       rxSpeed := if rx then (speedOf v).getD l.rxSpeed else l.rxSpeed
       txSpeed := if tx then (speedOf v).getD l.txSpeed else l.txSpeed
       txStop := if tx then (stopOf v).getD l.txStop else l.txStop } })

/-- CONSUME_ORDER: a value of 1023 or less that lies, modulo 1024, at most the number of unconsumed entries past the
consume index becomes the consume index, and any other leaves it; no report is raised, and the store word keeps the
value written in either case. An order that lowers a full count of 1023 makes a waiting pending list ready again, and the
attention output is high exactly while the two indices differ (R175, R176, R177).
An order presented while a run other than passage holds the M-port is not taken: it waits at the P-port and changes
nothing else, and one presented while another cycle waits there changes nothing at all (R157), as the model reads it
(log 8). -/
def Obligations.ConsumeOrderMovesWithinTheSpan : Prop :=
  (
  ∀ (v : Word) (s : State), s.granted → s.mapsLawful → s.reportsLawful →
    ∃ t, exec (.consumeOrder v) s = .next t ∧
    t = { s with
      store := t.store, arbiter := .granted .passage 0
      reports := { s.reports with consume := t.reports.consume, attention := t.reports.attention } } ∧
    s.wroteWord t (s.relayAddress 0x31) v ∧
    (let unconsumed := (s.reports.produce + 1024 - s.reports.consume) % 1024
     let within : Prop := v.toNat ≤ 1023 ∧ (v.toNat + 1024 - s.reports.consume) % 1024 ≤ unconsumed
     (within → t.reports.consume = v.toNat) ∧ (¬ within → t.reports.consume = s.reports.consume) ∧
     (s.reports.pending ≠ [] → unconsumed = 1023 → t.reports.consume ≠ s.reports.consume →
       t.reports.runReady = true)) ∧
    t.reports.attention = decide (t.reports.consume ≠ t.reports.produce)) ∧
  (
  ∀ (v : Word) (s : State), s.arbiter.open = false →
    (s.waiting = none → exec (.consumeOrder v) s =
      .next { s with waiting := some (.write (s.relayAddress 0x31) v) }) ∧
    (s.waiting ≠ none → exec (.consumeOrder v) s = .next s))

/-- A report handed over joins the tail of the pending list with the minute it was handed over, while the list holds
fewer than 32; else it is lost, and the lost count rises, stopping at 65535, which dirties the office status
(R174). -/
def Obligations.ReportJoinsTheListOrIsLost : Prop :=
  ∀ (place : Place) (tag : Word) (kind : ReportKind) (s : State),
    (s.reports.pending.length < 32 → s.raise place tag kind = { s with reports := { s.reports with
      pending := s.reports.pending ++ [{ place := place, tag := tag, kind := kind, minute := s.minute }] } }) ∧
    (32 ≤ s.reports.pending.length → s.reports.lost < 65535 → s.raise place tag kind =
      { s with reports := { s.reports with lost := s.reports.lost + 1 }, officeDirty := true }) ∧
    (32 ≤ s.reports.pending.length → s.reports.lost = 65535 → s.raise place tag kind = s)

/-- The report writer's run: at the grant the head report leaves the pending list and the run of five cycles holds the
M-port; at its end the entry at the produce index holds the report's four words, the office status word holds the next
produce index, attention is high, and the M-port is free (R167, R173, R175, R177). A run of which some cycles have been
made has the rest of its writes made.
The four words by their fields: the kind code, the extension bit, the office or the circuit and station, the tag word,
the detail of each kind, and the minute (R178, R185, R186).
It rests on the model's reading in logs 10 and 11. -/
def Obligations.ReportRunWritesOneEntry : Prop :=
  (
  ∀ (report : Report) (s : State),
    (∀ rest, s.nextRun = some .report → s.reports.pending = report :: rest →
      exec .reportWriteStart s = .next { s with
        reports := { s.reports with inRun := some report, pending := rest }
        arbiter := .granted .report 0 }) ∧
    (s.arbiter = .granted .report 0 → s.reports.inRun = some report → s.cyclesLeft = 5) ∧
    (∀ made, s.arbiter = .granted .report made → s.reports.inRun = some report → s.reports.lawful →
      s.mapsLawful → ∃ t, exec .reportWriteDone s = .next t ∧
      (let entry : Fin 4 → Address := fun j => s.relayAddress (0x1000 + 4 * s.reports.produce + j.val)
       let next := (s.reports.produce + 1) % 1024
       t = { s with
         store := t.store, arbiter := .free
         reports := { s.reports with produce := next, inRun := none, attention := true } } ∧
       (∀ j, made ≤ j.val → t.readStore (entry j) = report.words[j.val]?.getD 0) ∧
       (made ≤ 4 → t.readStore (s.relayAddress 0x10) = BitVec.ofNat 16 next) ∧
       ∀ a : Address, (∀ j, made ≤ j.val → a ≠ entry j) → (made ≤ 4 → a ≠ s.relayAddress 0x10) →
         t.readStore a = s.readStore a))) ∧
  (
  ∀ report : Report, (∀ slot channel, report.kind = .delivered slot channel → channel < 1024) →
    (let word : List (Nat × Nat) → Word := fun fields => BitVec.ofNat 16 (fields.map fun f => f.2 * 2 ^ f.1).sum
     let bit : Bool → Nat := fun b => if b then 1 else 0
     let head : Nat × Bool × Word := match report.kind with
       | .messageIn flags => (1, false, flags)
       | .messagePosted => (2, false, 0)
       | .postRefused outcome => (3, false, word [(0, outcome.code)])
       | .delivered slot channel => (4, false, word [(13, slot.val), (0, channel)])
       | .messageFreed => (5, false, 0)
       | .sequence expected => (6, false, word [(0, expected)])
       | .circuitState state cause => (7, false, word [(8, state.code), (0, cause.code)])
       | .lineFault kind mode => (8, false, word [(8, kind.code), (0, mode.code)])
       | .commandRefused reason code => (9, false, word [(8, reason.code), (0, code.toNat)])
       | .writeTrap offset => (10, decide (65536 ≤ offset), word [(0, offset)])
       | .station answering => (11, false, word [(0, bit (!answering))])
       | .overdue => (12, false, 0)
       | .preempted => (13, false, 0)
       | .giveDone skipped => (14, false, word [(0, skipped)])
       | .receiveLoss tableFull dropped => (15, tableFull, word [(0, dropped)])
       | .settingHeld => (16, false, 1)
       | .cancelledIn => (17, false, 0)
       | .releaseRefused reason => (18, false, word [(0, reason.code)])
       | .divertDone taken intercepted => (19, false, word [(8, min taken 255), (0, min intercepted 255)])
       | .codesIntercepted positions => (20, false, word [(0, positions.toNat)])
     let place : List (Nat × Nat) := match report.place with
       | .office => [(9, 1)]
       | .circuit c none => [(3, c.val)]
       | .circuit c (some n) => [(8, 1), (3, c.val), (0, n.val)]
     report.words =
       [word ([(11, head.1), (10, bit head.2.1)] ++ place), report.tag, head.2.2, report.minute]))

/-- MIRROR_RUN writes one member whole and takes it from its set: the lowest-numbered dirty record, else the
lowest-numbered dirty circuit, else the office status. No other word of the store changes (R169, R180). A run in
progress writes the words standing at its grant that are still to be written, and its member left the set then.
COMMAND_CLEAR_WRITE writes 0 to the command word of the lowest-numbered circuit in the pending clear set, and takes
it from the set (R164, R169).
The words by their fields: a directory record, the status of a circuit record and the office status (R181, R185). That
word 10 of a directory record is 0 while no receipt is stamped follows from the rule for none; that its precedence
field takes the codes of the post record is read from the layouts (log 21).
It rests on the model's reading in logs 10 and 21. -/
def Obligations.MirrorAndClearingWritesAreWhole : Prop :=
  (
  ∀ s : State, s.grantee s.waiting.isSome = some .mirrorWriter → s.mapsLawful →
    ∃ t, exec .mirrorRun s = .next t ∧
    (let wrote : Nat → List Word → Prop := fun offset words =>
       (∀ w : Nat, w < words.length → t.readStore (s.relayAddress (offset + w)) = words[w]?.getD 0) ∧
       ∀ a : Address, (∀ w : Nat, w < words.length → a ≠ s.relayAddress (offset + w)) →
         t.readStore a = s.readStore a
     (∀ r : RecordIdx, s.messageDirty[r] = true → (∀ r' : RecordIdx, r' < r → s.messageDirty[r'] = false) →
       t = { s with store := t.store, arbiter := .free, messageDirty := s.messageDirty.set r false } ∧
       wrote (0x2000 + 32 * r.val) (s.directoryWords r)) ∧
     (∀ c : Circuit, (∀ r : RecordIdx, s.messageDirty[r] = false) → s.circuitDirty[c] = true →
       (∀ c' : Circuit, c' < c → s.circuitDirty[c'] = false) →
       t = { s with store := t.store, arbiter := .free, circuitDirty := s.circuitDirty.set c false } ∧
       wrote (0x400 + 32 * c.val + 17) (s.circuitWords c)) ∧
     ((∀ r : RecordIdx, s.messageDirty[r] = false) → (∀ c : Circuit, s.circuitDirty[c] = false) →
       t = { s with store := t.store, arbiter := .free, officeDirty := false } ∧ wrote 0x10 s.officeWords))) ∧
  (
  ∀ (m : MirrorMember) (words : List Word) (made : Nat) (s : State), s.arbiter = .granted (.mirror m words) made →
    words.length ≤ 32 → s.mapsLawful → ∃ t, exec .mirrorRun s = .next t ∧
    t = { s with store := t.store, arbiter := .free } ∧
    (∀ w : Nat, made ≤ w → w < words.length →
      t.readStore (s.relayAddress (m.offset + w)) = words[w]?.getD 0) ∧
    ∀ a : Address, (∀ w : Nat, made ≤ w → w < words.length → a ≠ s.relayAddress (m.offset + w)) →
      t.readStore a = s.readStore a) ∧
  (
  ∀ (c : Circuit) (s : State), s.waiting = none → s.grantee false = some .passage →
    s.pendingClear[c] = true → (∀ c' : Circuit, c' < c → s.pendingClear[c'] = false) → s.mapsLawful →
    ∃ t, exec .commandClearWrite s = .next t ∧
    t = { s with store := t.store, arbiter := .granted .passage 0, pendingClear := s.pendingClear.set c false } ∧
    s.wroteWord t (s.relayAddress (0x400 + 32 * c.val + 16)) 0) ∧
  (
  ∀ s : State,
    (let word : List (Nat × Nat) → Word := fun fields => BitVec.ofNat 16 (fields.map fun f => f.2 * 2 ^ f.1).sum
     let bit : Bool → Nat := fun b => if b then 1 else 0
     let code : Code → Word := fun x => word [(8, x.first.toNat), (0, x.second.toNat)]
     let block : Option Nat → Word := fun b => match b with
       | none => 0xFFFF
       | some n => word [(0, n)]
     let shown : Nat → Word := fun n => word [(0, min n 65535)]
     (∀ r : RecordIdx, (s.message r).mutilated ≤ 255 →
       (∀ k : SlotIdx, ∀ d, s.delivery r k = some d → d.attempts ≤ 15) →
       (let m := s.message r
        let set : SlotIdx → Nat := fun k => match s.delivery r k with
          | none => 0
          | some d => d.codes.toNat
        s.directoryWords r =
          [word [(7, m.generation), (0, r.val)],
           word [(8, m.mutilated), (7, bit m.hold), (6, bit m.precedence.isSome),
             (4, match m.precedence with
               | some p => p.code
               | none => 0), (0, m.state.code)],
           word [(15, bit m.receiptMinute.isSome), (8, HeadingError.code m.flags.headingError),
             (7, bit m.flags.tooManyCodes), (6, bit m.flags.missingEnd), (5, bit m.flags.lengthLimit),
             (4, bit m.flags.truncated), (3, bit m.flags.duplicate), (2, bit m.flags.intercept),
             (1, bit m.flags.isLocal), (0, bit m.flags.posted)],
           (match m.origin with
             | none => 0
             | some .posted => word [(15, 1)]
             | some (.circuit c none) => word [(3, c.val)]
             | some (.circuit c (some n)) => word [(3, c.val), (0, n.val)]),
           (match m.channel with
             | some n => word [(0, n)]
             | none => 0),
           (match m.originCode with
             | some x => code x
             | none => 0),
           word [(0, m.textLength)], block m.head, block m.tail, word [(0, m.blockCount)],
           m.receiptMinute.getD 0, word [(8, m.interceptSet.toNat), (0, m.localSet.toNat)]] ++
          (List.range 8).map (fun i => match m.destinations[i]? with
            | none => 0
            | some .badCode => 0xFFFF
            | some (.code x) => code x) ++
          (List.finRange 8).map (fun k => match s.delivery r k with
            | none => 0
            | some d => word [(12, d.attempts), (8, d.station.val), (3, d.circuit.val), (0, d.state.code)]) ++
          (List.finRange 4).map (fun k : Fin 4 =>
            word [(8, set (Fin.ofNat 8 (2 * k.val + 1))), (0, set (Fin.ofNat 8 (2 * k.val)))]))) ∧
     (∀ c : Circuit, (s.circuit c).control.retryCount ≤ 255 →
       (∀ r k d, (s.circuit c).send.active = some (r, k) → s.delivery r k = some d → d.attempts ≤ 15) →
       (let x := s.circuit c
        let f := x.control.faults
        let n := x.dialogue.lastStation
        s.circuitWords c =
          [word [(12, n.val), (8, x.dialogue.state.code), (4, bit x.control.diverting),
             (3, bit x.control.holdPending), (0, x.control.state.code)]] ++
          (match x.send.active with
            | none => [0, 0]
            | some (r, k) =>
              [s.tag r, word [(15, 1), (4, match s.delivery r k with
                | some d => d.attempts
                | none => 0), (0, k.val)]]) ++
          [shown x.send.remaining, shown (s.queue c .t).count, shown (s.queue c .u).count,
           shown (s.queue c .r).count, shown (s.queue c .s).count,
           word [(8, x.control.retryCount), (3, bit f.noLine), (2, bit f.framing), (1, bit f.sendLoopOpen),
             (0, bit f.openReceive)],
           word [(0, if s.isParty c then (s.station c n).outgoing else x.outgoing)],
           word [(0, if s.isParty c then (s.station c n).expected.getD 0 else x.recogniser.expected.getD 0)],
           word ((List.finRange 8).map fun t =>
             (t.val, bit ((s.station c t).present && (s.station c t).answering))),
           word [(0, x.line.framingErrors)], 0, 0])) ∧
     s.officeWords =
       [word [(0, s.reports.produce)], word [(0, s.reports.lost)], word [(0, s.pool.count)],
        word [(0, s.freeCount)], s.minute, word [(8, bit s.walk.isSome), (0, s.postOutcome.code)],
        word [(0, bit s.pool.give.isSome)], 0, 0, 0, 0, 0, 0, 0, 0, 0]))

/-! ### Circuit control and the party dialogue -/

/-- The checks of a circuit command, in their order, and what is done for one that fails: code 0 does nothing, a code
above 7 is UNKNOWN, a diverting circuit is BUSY, a state that does not allow the command is WRONG_STATE, an OPEN
with invalid settings is BAD_SETTINGS, and a STATION_RESET of no valid station is BAD_STATION. COMMAND_REFUSED names
the reason and the code; the command word is written and its clearing owed, and the circuit is as it was (R141,
R142, R151, R163, R164).
It rests on the model's reading in log 29. -/
def Obligations.CircuitCommandIsCheckedInOrder : Prop :=
  ∀ (c : Circuit) (argument : BitVec 8) (s : State), s.granted → s.mapsLawful →
    (let k := (s.circuit c).control
     let refused : Instr → BitVec 8 → CommandRefusal → Prop := fun i code reason => ∃ t, exec i s = .next t ∧
       s.tookCommand t c code argument [(.circuit c none, 0, .commandRefused reason code)] ∧
       t.circuits = s.circuits ∧ t.circuitDirty = s.circuitDirty
     let known : List (Instr × BitVec 8 × List CircuitMode) :=
       [(.openCommand c argument, 1, [.closed]),
        (.closeCommand c argument, 2, [.checking, .ready, .held, .fault, .retryWait]),
        (.holdCommand c argument, 3, [.ready]), (.resumeCommand c argument, 4, [.ready, .held]),
        (.clearFaultCommand c argument, 5, [.fault, .retryWait]),
        (.divertCommand c argument, 6, [.closed, .held, .fault, .retryWait]),
        (.stationResetCommand c argument, 7, [.ready, .held])]
     (∃ t, exec (.noCommand c argument) s = .next t ∧ s.tookCommand t c 0 argument [] ∧
       t.circuits = s.circuits ∧ t.circuitDirty = s.circuitDirty) ∧
     (∀ code : BitVec 8, 8 ≤ code.toNat → refused (.commandUnknown c code argument) code .unknown) ∧
     (∀ e ∈ known, k.diverting = true → refused e.1 e.2.1 .busy) ∧
     (∀ e ∈ known, k.diverting = false → k.state ∉ e.2.2 → refused e.1 e.2.1 .wrongState) ∧
     (k.diverting = false → k.state = .ready →
       (k.holdPending = true → refused (.holdCommand c argument) 3 .wrongState) ∧
       (k.holdPending = false → refused (.resumeCommand c argument) 4 .wrongState)) ∧
     (k.diverting = false → k.state = .closed →
       (kindOf (s.setting c 0) = .unused ∨ speedSettingInvalid (s.setting c 1) = true ∨
        (kindOf (s.setting c 0) = .party ∧ ∀ n : Fin 8, bitSet (s.setting c (6 + n.val)) 15 = false)) →
       refused (.openCommand c argument) 1 .badSettings) ∧
     (k.diverting = false → k.state = .ready ∨ k.state = .held →
       (s.isParty c = false ∨ 8 ≤ argument.toNat ∨
        ∃ n : Fin 8, argument.toNat = n.val ∧ (s.station c n).present = false) →
       refused (.stationResetCommand c argument) 7 .badStation))

/-- OPEN_COMMAND accepted: the effective settings, the speed and the station table are copied from the shadow, the
expected numbers are ANY, the receiver hunts, the three detectors and the line check begin anew, and the circuit is
CHECKING (R3, R17, R117, R143, R144). The outgoing counters and the poll timer are not touched.
That a character still on the line from before a quick CLOSE goes on at the new speed is the model's choice (log 37). -/
def Obligations.OpenCopiesTheSettings : Prop :=
  ∀ (c : Circuit) (argument : BitVec 8) (s : State), s.granted → s.mapsLawful →
    (s.circuit c).control.state = .closed → (s.circuit c).control.diverting = false →
    kindOf (s.setting c 0) ≠ .unused → speedSettingInvalid (s.setting c 1) = false →
    (kindOf (s.setting c 0) = .party → ∃ n : Fin 8, bitSet (s.setting c (6 + n.val)) 15 = true) →
    ∃ t, exec (.openCommand c argument) s = .next t ∧
    s.tookCommand t c 1 argument [(.circuit c none, 0, .circuitState .checking .openCommand)] ∧
    (let x := s.circuit c
     t.circuit c = { x with
       line := { x.line with
         rxSpeed := (speedOf (s.setting c 1)).getD 0, txSpeed := (speedOf (s.setting c 1)).getD 0
         txStop := (stopOf (s.setting c 1)).getD 0, receiver := .hunting, framingErrors := 0
         openDetector := .armed, openCount := 0, openMarkRun := 0, loopDetector := .armed, loopCount := 0
         framingDetector := .armed, framingCount := 0 }
       recogniser := { x.recogniser with
         state := .hunt, shift := .letters, lineStart := true, held := [], somCount := 0, expected := none }
       dialogue := { x.dialogue with rotation := 0 }
       stations := Vector.ofFn fun n : StationIdx =>
         { present := bitSet (s.setting c (6 + n.val)) 15, pollEnable := bitSet (s.setting c (6 + n.val)) 14
           first := BitVec.ofNat 5 (max (bitField (s.setting c (6 + n.val)) 5 5) 6)
           second := BitVec.ofNat 5 (max (bitField (s.setting c (6 + n.val)) 0 5) 6)
           answering := true, failures := 0, outgoing := (x.stations[n]).outgoing, expected := none }
       control := { x.control with
         state := .checking, faults := .empty, retryCount := 0, markRun := 0, checkCount := 0
         noLineReported := false
         effective := {
           kind := kindOf (s.setting c 0), preemption := bitSet (s.setting c 0) 2
           openLineTime := max (lowByte (s.setting c 2)) 5, answerTimeout := max (lowByte (s.setting c 3)) 10
           retryLimit := min (max (bitField (s.setting c 4) 0 4) 1) 7
           pollInterval := max (highByte (s.setting c 4)) 1, silenceLimit := lowByte (s.setting c 5) } } })

/-- CLOSE_COMMAND on a point circuit whose recogniser is in HUNT: the receiver is STOPPED, the hold and the retry timer
are cleared, and the circuit is CLOSED. A delivery being sent returns to the head of its queue with its attempts
raised, up to 15, its saved number cleared and its full sent length counted again (R3, R97, R113, R146).
That the character on the line goes on without a source is read from the rules (log 33). -/
def Obligations.CloseReturnsTheDeliveryBeingSent : Prop :=
  ∀ (c : Circuit) (argument : BitVec 8) (s : State), s.granted → s.mapsLawful →
    (s.circuit c).control.state ≠ .closed → (s.circuit c).control.diverting = false →
    s.isParty c = false → (s.recogniser c).state = .hunt →
    (let x := s.circuit c
     let closed : CircuitState := { x with
       line := { x.line with receiver := .stopped, transmitter := x.line.transmitter.orphan }
       control := { x.control with state := .closed, holdPending := false, retryTimer := none } }
     let told : List (Place × Word × ReportKind) := [(.circuit c none, 0, .circuitState .closed .close)]
     (x.send = .none → ∃ t, exec (.closeCommand c argument) s = .next t ∧
       s.tookCommand t c 2 argument told ∧ t.circuit c = closed) ∧
     ∀ (r : RecordIdx) (k : SlotIdx) (d : Delivery), x.send.active = some (r, k) → s.delivery r k = some d →
       d.circuit = c → x.send.pendingCancel = false → x.send.cause ≠ some .order →
       (∀ j : SlotIdx, j ≠ k → ∀ d', s.delivery r j = some d' → ¬ (d'.state = .queued ∧ d'.circuit = c)) →
       (let m := s.message r
        let returned : Delivery :=
          { d with state := .queued, attempts := min (d.attempts + 1) 15, saved := none }
        let queue := s.queue c m.rank
        let length := m.textLength + 3 * codeCount d.codes + 29
        ∃ t, exec (.closeCommand c argument) s = .next t ∧
        t = { s with
          store := t.store, arbiter := .granted .passage 0, pendingClear := s.pendingClear.set c true
          circuits := t.circuits, circuitDirty := t.circuitDirty
          messages := t.messages, messageDirty := t.messageDirty
          reports := (s.raiseAll told).reports, officeDirty := (s.raiseAll told).officeDirty } ∧
        s.wroteWord t (s.relayAddress (offCommand c)) (argument ++ (2 : BitVec 8)) ∧ s.othersKept t c ∧
        t.circuit c = { closed with
          send := .none
          queues := x.queues.put m.rank
            { entries := ⟨r, k, length⟩ :: queue.entries, count := queue.count + length } } ∧
        (∀ r' : RecordIdx, r' ≠ r → t.message r' = s.message r') ∧
        t.message r = { m with slots := m.slots.set k (some returned) }))

/-- HOLD_COMMAND on a READY circuit: with nothing being sent the circuit is HELD at once; else the hold waits for the
end of the transmission. RESUME_COMMAND takes a waiting hold back, or makes a HELD circuit READY, and the
scheduler judges. An entry to HELD or READY makes the line unit compare speeds, word 1 being valid here (R11, R126,
R147, R148).
It rests on the model's reading in log 32. -/
def Obligations.HoldAndResumeChangeTheState : Prop :=
  ∀ (c : Circuit) (argument : BitVec 8) (s : State), s.granted → s.mapsLawful →
    (s.circuit c).control.diverting = false → speedSettingInvalid (s.setting c 1) = false →
    (let x := s.circuit c
     (x.control.state = .ready → x.control.holdPending = false → x.send.phase = .idle →
       ∃ t, exec (.holdCommand c argument) s = .next t ∧
       s.tookCommand t c 3 argument [(.circuit c none, 0, .circuitState .held .hold)] ∧
       t.circuit c = { x with
         line := x.line.compared (s.setting c 1), control := { x.control with state := .held } }) ∧
     (x.control.state = .ready → x.control.holdPending = false → x.send.phase ≠ .idle →
       ∃ t, exec (.holdCommand c argument) s = .next t ∧ s.tookCommand t c 3 argument [] ∧
       t.circuit c = { x with control := { x.control with holdPending := true } }) ∧
     (x.control.state = .held →
       ∃ u, exec (.resumeCommand c argument) s = .next (judge c u) ∧
       s.tookCommand u c 4 argument [(.circuit c none, 0, .circuitState .ready .resume)] ∧
       u.circuit c = { x with
         line := x.line.compared (s.setting c 1), control := { x.control with state := .ready } }) ∧
     (x.control.state = .ready → x.control.holdPending = true →
       ∃ u, exec (.resumeCommand c argument) s = .next (judge c u) ∧ s.tookCommand u c 4 argument [] ∧
       u.circuit c = { x with control := { x.control with holdPending := false } }))

/-- CLEAR_FAULT_COMMAND on a FAULT or RETRY_WAIT circuit: the retry timer stops, the fault set is empty and the retry
count 0, the detectors are re-armed and the line check begins, and the circuit is CHECKING with cause CLEAR_FAULT;
the effective settings, the station table and the expected numbers are as they were. -/
def Obligations.ClearFaultBeginsTheLineCheck : Prop :=
  ∀ (c : Circuit) (argument : BitVec 8) (s : State), s.granted → s.mapsLawful →
    ((s.circuit c).control.state = .fault ∨ (s.circuit c).control.state = .retryWait) →
    (s.circuit c).control.diverting = false →
    ∃ t, exec (.clearFaultCommand c argument) s = .next t ∧
    s.tookCommand t c 5 argument [(.circuit c none, 0, .circuitState .checking .clearFault)] ∧
    (let x := s.circuit c
     t.circuit c = { x with
       line := { x.line with
         openDetector := .armed, openCount := 0, openMarkRun := 0, loopDetector := .armed, loopCount := 0
         framingDetector := .armed, framingCount := 0 }
       control := { x.control with
         state := .checking, retryTimer := none, faults := .empty, retryCount := 0, markRun := 0
         checkCount := 0, noLineReported := false } })

/-- DIVERT_COMMAND accepted: the circuit carries the diverting mark with both counts 0, and its state stays; on empty
queues the divert ends in the same event, with DIVERT_DONE for counts of 0 and the mark clear (R90, R94, R150). -/
def Obligations.DivertMarksTheCircuit : Prop :=
  ∀ (c : Circuit) (argument : BitVec 8) (s : State), s.granted → s.mapsLawful →
    (s.circuit c).control.state ∈ [CircuitMode.closed, .held, .fault, .retryWait] →
    (s.circuit c).control.diverting = false →
    (let x := s.circuit c
     let empty : Prop := ∀ p, (s.queue c p).entries = []
     (empty → ∃ t, exec (.divertCommand c argument) s = .next t ∧
       s.tookCommand t c 6 argument [(.circuit c none, 0, .divertDone 0 0)] ∧
       t.circuit c = { x with divert := { taken := 0, intercepted := 0 } }) ∧
     (¬ empty → ∃ t, exec (.divertCommand c argument) s = .next t ∧ s.tookCommand t c 6 argument [] ∧
       t.circuit c = { x with
         divert := { taken := 0, intercepted := 0 }, control := { x.control with diverting := true } }))

/-- STATION_RESET_COMMAND of a present station of a party circuit: its failure count is 0 and it is ANSWERING; if that
is a change, STATION is raised and a QUIET dialogue is woken (R129, R151). -/
def Obligations.StationResetMakesTheStationAnswer : Prop :=
  ∀ (c : Circuit) (n : StationIdx) (s : State), s.granted → s.mapsLawful → s.inService c = true →
    (s.circuit c).control.diverting = false → s.isParty c = true → (s.station c n).present = true →
    (let x := s.circuit c
     let command : Instr := .stationResetCommand c (BitVec.ofNat 8 n.val)
     let reset : CircuitState :=
       { x with stations := x.stations.set n { x.stations[n] with failures := 0, answering := true } }
     ((s.station c n).answering = true → ∃ t, exec command s = .next t ∧
       s.tookCommand t c 7 (BitVec.ofNat 8 n.val) [] ∧ t.circuit c = reset) ∧
     ((s.station c n).answering = false → ∃ u, exec command s = .next (judge c u) ∧
       s.tookCommand u c 7 (BitVec.ofNat 8 n.val) [(.circuit c (some n), 0, .station true)] ∧
       u.circuit c = reset))

/-- CHECK_PASSED, due at a mark run of 100: the circuit is READY with an empty fault set, a retry count of 0 and no
hold pending, its recogniser hunts, a party circuit's poll timer is loaded with 10 ticks for each unit of its
interval, and the scheduler judges. RETRY_TIMER_EXPIRY, due at 0, begins a new line check, the fault set and the
retry count kept (R11, R17, R19, R121, R144, R154).
It rests on the model's reading in logs 2, 20 and 32. -/
def Obligations.LineCheckPassesAndBeginsAgain : Prop :=
  ∀ (c : Circuit) (s : State),
    (let x := s.circuit c
     (x.control.state = .checking → x.control.markRun = 100 → speedSettingInvalid (s.setting c 1) = false →
       ∃ u, exec (.checkPassed c) s = .next (judge c u) ∧
       s.onlyCircuit u c [(.circuit c none, 0, .circuitState .ready .checkPassed)] ∧
       u.circuit c = { x with
         line := x.line.compared (s.setting c 1)
         recogniser := { x.recogniser with
           state := .hunt, shift := .letters, lineStart := true, held := [], somCount := 0 }
         dialogue := if s.isParty c then { x.dialogue with
             pollTimer := some (10 * x.control.effective.pollInterval), pollExpired := false }
           else x.dialogue
         control := { x.control with
           state := .ready, faults := .empty, retryCount := 0, holdPending := false } }) ∧
     (x.control.state = .retryWait → x.control.retryTimer = some 0 →
       ∃ t, exec (.retryTimerExpiry c) s = .next t ∧
       s.onlyCircuit t c [(.circuit c none, 0, .circuitState .checking .retryExpiry)] ∧
       t.circuit c = { x with
         line := { x.line with
           openDetector := .armed, openCount := 0, openMarkRun := 0, loopDetector := .armed, loopCount := 0
           framingDetector := .armed, framingCount := 0 }
         control := { x.control with
           state := .checking, retryTimer := none, markRun := 0, checkCount := 0, noLineReported := false } }))

/-- ANSWER_TIMER_EXPIRY, due at 0, in ANSWER_WAIT or POLL_WAIT is a failed attempt of the selected station: its failure
count rises, up to 7, and at the retry limit it becomes NOT_ANSWERING with a STATION report; the dialogue is
QUIET and the scheduler judges. In the line-end wait of an inbound message it lets the reply go (R120, R128, R129,
R132, R133).
POLL_TIMER_EXPIRY, due at 0: the timer stops with its expired flag set, and the scheduler judges (R121, R123).
An inbound message in the text that ends with EEEE at line start owes its station a reply, ACCEPTED if it is clean and
else REFUSED, and the line-end wait begins; the next LF ends the wait, and the reply is sent. The second character of
the reply ends the dialogue, and the scheduler judges (R131, R132, R133). A silence in the text is a failed attempt
(R36, R132).
It rests on the model's reading in logs 1, 2, 25 and 26. -/
def Obligations.PartyTimersExpire : Prop :=
  (
  ∀ (c : Circuit) (s : State), (s.circuit c).dialogue.answerTimer = some 0 →
    (let x := s.circuit c
     (∀ n : StationIdx, (x.dialogue.state = .answerWait ∨ x.dialogue.state = .pollWait) →
       x.dialogue.selected = some n →
       (let failures := min ((s.station c n).failures + 1) 7
        let fails : Prop := x.control.effective.retryLimit ≤ failures ∧ (s.station c n).answering = true
        ∃ u, exec (.answerTimerExpiry c) s = .next (judge c u) ∧
        s.onlyCircuit u c (if fails then [(.circuit c (some n), 0, .station false)] else []) ∧
        u.circuit c = { x with
          dialogue := { x.dialogue with
            state := .quiet, answerTimer := none, lineEndWait := false, pollReply := none }
          stations := x.stations.set n { x.stations[n] with
            failures := failures, answering := (s.station c n).answering && !decide fails } })) ∧
     (x.dialogue.state = .inbound → x.dialogue.lineEndWait = true →
       ∃ t, exec (.answerTimerExpiry c) s = .next t ∧ s.onlyCircuit t c [] ∧
       t.circuit c = { x with dialogue := { x.dialogue with
         state := .replying, sequencePos := 0, answerTimer := none, lineEndWait := false } }))) ∧
  (
  ∀ (c : Circuit) (s : State), (s.circuit c).dialogue.pollTimer = some 0 →
    ∃ u, exec (.pollTimerExpiry c) s = .next (judge c u) ∧ s.onlyCircuit u c [] ∧
    u.circuit c = { s.circuit c with dialogue :=
      { (s.circuit c).dialogue with pollTimer := none, pollExpired := true } }) ∧
  (
  ∀ (c : Circuit) (s : State) (k : Nat) (bits : RelayChar),
    (s.circuit c).line.receiver = .assembling k bits → 95 ≤ k → s.inService c = true → s.isParty c = true →
    (speedSettingInvalid (s.setting c 1) = false ∨ (s.circuit c).line.settingHeld = true) →
    (s.circuit c).dialogue.state = .inbound →
    (let x := s.circuit c
     let q := s.recogniser c
     (∀ r, bits = 10 → q.state = .text → q.filling = some r → q.discardCause = none → q.shift = .letters →
       q.lineStart = true → q.held.length < 8 → (q.held.filter fun h => !h.isShift).length = 3 →
       (∀ h ∈ (q.held.filter fun h => !h.isShift).head?, h.value = 10) →
       ∃ t, exec (.characterReceived c true) s = .next t ∧ s.onlyCircuit t c [] ∧
       (let f := (s.message r).flags
        t.circuit c = { x with
          line := (t.circuit c).line, textFifo := x.textFifo ++ [.ending r .eom]
          recogniser := { q with
            silence := s.silenceLoad c, state := .hunt, lineStart := false, held := [], somCount := 0
            filling := none, dropped := 0 }
          dialogue := { x.dialogue with
            replyOwed := some (if f.truncated = false ∧ f.lengthLimit = false then .accepted else .refused)
            lineEndWait := true, answerTimer := some x.control.effective.answerTimeout } })) ∧
     (bits = 1 → q.state = .hunt → x.dialogue.lineEndWait = true →
       ∃ t, exec (.characterReceived c true) s = .next t ∧ s.onlyCircuit t c [] ∧
       t.circuit c = { x with
         line := (t.circuit c).line
         recogniser := { q with silence := s.silenceLoad c, lineStart := true, somCount := 0 }
         dialogue := { x.dialogue with
           state := .replying, sequencePos := 0, answerTimer := none, lineEndWait := false } }))) ∧
  (
  ∀ (c : Circuit) (s : State) (char : RelayChar) (tick total : Nat) (reply : Reply),
    (s.circuit c).line.transmitter = .sending char tick total (some .dialogue) → total ≤ tick + 1 →
    s.isParty c = true → s.inService c = true → speedSettingInvalid (s.setting c 1) = false →
    (s.circuit c).send = .none → (s.circuit c).dialogue.state = .replying →
    (s.circuit c).dialogue.replyOwed = some reply →
    (let x := s.circuit c
     let stop := (stopOf (s.setting c 1)).getD x.line.txStop
     (x.dialogue.sequencePos = 0 → ∃ t, exec (.characterBoundary c) s = .next t ∧ s.onlyCircuit t c [] ∧
       t.circuit c = { x with
         dialogue := { x.dialogue with sequencePos := 1 }
         line := { x.line with
           txTicksDue := x.line.txTicksDue - 1, txSpeed := (speedOf (s.setting c 1)).getD x.line.txSpeed
           txStop := stop
           transmitter := .sending (if reply = .accepted then 23 else 22) 0 (characterTicks stop)
             (some .dialogue) } }) ∧
     (x.dialogue.sequencePos = 1 → ∃ u, s.onlyCircuit u c [] ∧
       exec (.characterBoundary c) s =
         .next (let v := compareSpeed false true c (judge c u)
                takeOffered c (if v.preempts c then beginCancelLine c .preempt v else v)) ∧
       u.circuit c = { x with
         dialogue := { x.dialogue with
           state := .quiet, sequencePos := 2, replyOwed := none, answerTimer := none, lineEndWait := false
           pollReply := none }
         line := { x.line with transmitter := .idle, txTicksDue := x.line.txTicksDue - 1 } }))) ∧
  (
  ∀ (c : Circuit) (s : State) (r : RecordIdx) (n : StationIdx), (s.recogniser c).silence = some 0 →
    s.isParty c = true → (s.circuit c).dialogue.state = .inbound → (s.circuit c).dialogue.selected = some n →
    (s.recogniser c).state = .text → (s.recogniser c).filling = some r → (s.recogniser c).held = [] →
    (s.recogniser c).discardCause = none →
    (let x := s.circuit c
     let failures := min ((s.station c n).failures + 1) 7
     let fails : Prop := x.control.effective.retryLimit ≤ failures ∧ (s.station c n).answering = true
     let told : List (Place × Word × ReportKind) :=
       if fails then [(.circuit c (some n), 0, .station false)] else []
     ∃ u, exec (.silenceExpiry c) s = .next (judge c u) ∧
     u = { s with
       circuits := u.circuits, circuitDirty := u.circuitDirty
       messages := u.messages, messageDirty := u.messageDirty
       reports := (s.raiseAll told).reports, officeDirty := (s.raiseAll told).officeDirty } ∧
     s.othersKept u c ∧
     u.circuit c = { x with
       textFifo := x.textFifo ++ [.ending r .silence]
       recogniser := { x.recogniser with
         silence := none, state := .hunt, lineStart := true, somCount := 0, filling := none, dropped := 0 }
       dialogue := { x.dialogue with
         state := .quiet, answerTimer := none, lineEndWait := false, pollReply := none }
       stations := x.stations.set n { x.stations[n] with
         failures := failures, answering := (s.station c n).answering && !decide fails } } ∧
     (∀ r' : RecordIdx, r' ≠ r → u.message r' = s.message r') ∧
     u.message r = { s.message r with flags := { (s.message r).flags with truncated := true } }))

/-- CHARACTER_RECEIVED with the second call letter of the selected station, in letters case, on a READY party circuit in
ANSWER_WAIT: the answer timer stops, the failure count is 0, and the first delivery queued for the station, T
before U, R and S, is started, the dialogue DELIVERING; with none the dialogue is QUIET and the scheduler judges
(R119, R125, R126).
On a READY or HELD circuit a shift character sets the answer case only, and a character that goes on with the answer
advances the match. Any other is a failed attempt of the station; in RECEIPT_WAIT the delivery then returns to the head
of its queue with its saved number kept (R97, R125, R127, R128, R129). The second R of a receipt makes the delivery
DONE with DELIVERED (R127). The second N of a poll reply ends the dialogue and makes the station answer; the third H
does so too, and the station's message begins, in INBOUND and in letters case (R22, R130, R131).
That a station fails when its failure count is at least the retry limit is read from the rule (log 26). With no record
FREE the message begins as a discard that leaves line start as it was, read from the rule, in letters case, which is
the model's choice (log 16).
It rests on the model's reading in logs 16, 20, 25 and 26. -/
def Obligations.SecondCallLetterStartsTheDelivery : Prop :=
  (
  ∀ (c : Circuit) (k : Nat) (n : StationIdx) (s : State),
    (s.circuit c).line.receiver = .assembling k (s.station c n).second → 95 ≤ k → s.isParty c = true →
    (s.circuit c).control.state = .ready → speedSettingInvalid (s.setting c 1) = false →
    (s.circuit c).dialogue.state = .answerWait → (s.circuit c).dialogue.selected = some n →
    (s.circuit c).dialogue.matchPos = 1 → (s.circuit c).dialogue.answerShift = .letters →
    6 ≤ (s.station c n).second.toNat →
    ∃ u, s.onlyCircuit u c [] ∧
    (let x := s.circuit c
     u.circuit c = { x with
       line := (u.circuit c).line
       dialogue := { x.dialogue with answerTimer := none }
       stations := x.stations.set n { x.stations[n] with failures := 0 } } ∧
     (u.circuit c).line.receiver = .hunting ∧
     (u.circuit c).line.transmitter = x.line.transmitter ∧
     (∀ e, s.firstForStation c n = some e → exec (.characterReceived c true) s =
       .next ((startTransmission c e u).updDialogue c fun d => { d with state := .delivering })) ∧
     (s.firstForStation c n = none →
       exec (.characterReceived c true) s = .next (judge c (u.updDialogue c fun d =>
         { d with state := .quiet, lineEndWait := false, pollReply := none }))))) ∧
  (
  ∀ (c : Circuit) (k : Nat) (n : StationIdx) (mark : Bool) (bits : RelayChar) (s : State),
    (s.circuit c).line.receiver = .assembling k bits → 95 ≤ k → s.isParty c = true → s.inService c = true →
    (speedSettingInvalid (s.setting c 1) = false ∨ (s.circuit c).line.settingHeld = true) →
    (s.circuit c).dialogue.selected = some n →
    (let x := s.circuit c
     let d := x.dialogue
     let isShift : Prop := mark = true ∧ (bits = 4 ∨ bits = 5)
     let isLetter : RelayChar → Prop := fun l => mark = true ∧ d.answerShift = .letters ∧ bits = l
     let waits : Prop := d.state = .answerWait ∨ d.state = .receiptWait ∨ d.state = .pollWait
     let quiet : Dialogue :=
       { d with state := .quiet, answerTimer := none, lineEndWait := false, pollReply := none }
     let goesOn : Dialogue → Prop := fun d' => ∃ t, exec (.characterReceived c mark) s = .next t ∧
       s.onlyCircuit t c [] ∧ t.circuit c = { x with line := (t.circuit c).line, dialogue := d' }
     let failures := min ((s.station c n).failures + 1) 7
     let fails : Prop := x.control.effective.retryLimit ≤ failures ∧ (s.station c n).answering = true
     let told : List (Place × Word × ReportKind) :=
       if fails then [(.circuit c (some n), 0, .station false)] else []
     let failed : CircuitState := { x with
       dialogue := quiet
       stations := x.stations.set n { x.stations[n] with
         failures := failures, answering := (s.station c n).answering && !decide fails } }
     let expects : RelayChar → Prop := fun l =>
       (d.state = .answerWait ∧ d.matchPos = 0 ∧ l = (s.station c n).first) ∨
       (d.state = .answerWait ∧ d.matchPos = 1 ∧ l = (s.station c n).second) ∨
       (d.state = .receiptWait ∧ l = 23) ∨
       (d.state = .pollWait ∧ d.pollReply = none ∧ (l = 19 ∨ l = 13)) ∨
       (d.state = .pollWait ∧ d.pollReply = some .nothing ∧ l = 19) ∨
       (d.state = .pollWait ∧ d.pollReply = some .traffic ∧ l = 13)
     let answers : CircuitState := { x with
       stations := x.stations.set n { x.stations[n] with failures := 0, answering := true } }
     let answered : List (Place × Word × ReportKind) :=
       if (s.station c n).answering then [] else [(.circuit c (some n), 0, .station true)]
     (waits → isShift → goesOn { d with answerShift := if bits = 5 then .letters else .figures }) ∧
     -- a character that goes on with the answer
     (∀ l, 6 ≤ l.toNat → isLetter l → expects l →
       (d.state = .answerWait ∨ d.state = .receiptWait → d.matchPos = 0 → goesOn { d with matchPos := 1 }) ∧
       (d.state = .pollWait → d.pollReply = none →
         goesOn { d with pollReply := some (if l = 19 then .nothing else .traffic), matchPos := 1 }) ∧
       (d.state = .pollWait → d.pollReply = some .traffic → d.matchPos = 1 → goesOn { d with matchPos := 2 })) ∧
     -- any other character
     (¬ isShift → (∀ l, isLetter l → ¬ expects l) → (d.state = .answerWait → d.matchPos ≤ 1) →
       (d.state = .answerWait ∨ d.state = .pollWait → ∃ u, exec (.characterReceived c mark) s = .next (judge c u) ∧
         s.onlyCircuit u c told ∧ u.circuit c = { failed with line := (u.circuit c).line }) ∧
       (∀ r j a, d.state = .receiptWait → x.send.active = some (r, j) → s.delivery r j = some a → a.circuit = c →
         x.control.holdPending = false →
         (∀ i : SlotIdx, i ≠ j → ∀ a', s.delivery r i = some a' →
           ¬ (a'.state = .queued ∧ a'.circuit = c ∧ a'.station = a.station)) →
         (let m := s.message r
          let length := m.textLength + 3 * codeCount a.codes + 29
          ∃ u, exec (.characterReceived c mark) s = .next (judge c u) ∧
          u = { s with
            circuits := u.circuits, circuitDirty := u.circuitDirty
            messages := u.messages, messageDirty := u.messageDirty
            reports := (s.raiseAll told).reports, officeDirty := (s.raiseAll told).officeDirty } ∧
          s.othersKept u c ∧
          u.circuit c = { failed with
            line := (u.circuit c).line, send := .none
            queues := x.queues.put m.rank
              { entries := ⟨r, j, length⟩ :: (s.queue c m.rank).entries
                count := (s.queue c m.rank).count + length } } ∧
          (∀ r' : RecordIdx, r' ≠ r → u.message r' = s.message r') ∧
          u.message r = { m with slots := m.slots.set j (some
            { a with state := .queued, attempts := min (a.attempts + 1) 15 }) }))) ∧
     -- the second R
     (∀ r j a, d.state = .receiptWait → isLetter 23 → d.matchPos = 1 → x.send.active = some (r, j) →
       s.delivery r j = some a →
       ∃ u, exec (.characterReceived c mark) s = .next (judge c
         ((transmissionEnded c (settle r u)).updDialogue c fun d =>
           { d with state := .quiet, answerTimer := none, lineEndWait := false, pollReply := none })) ∧
       (let told : List (Place × Word × ReportKind) :=
          [(.circuit c (some a.station), s.tag r, .delivered j (x.send.channel.getD 0))]
        u = { s with
          circuits := u.circuits, circuitDirty := u.circuitDirty
          messages := u.messages, messageDirty := u.messageDirty
          reports := (s.raiseAll told).reports, officeDirty := (s.raiseAll told).officeDirty } ∧
        s.othersKept u c ∧
        u.circuit c = { x with
          line := (u.circuit c).line, send := .none, dialogue := { d with answerTimer := none }
          stations := x.stations.set n { x.stations[n] with failures := 0 } } ∧
        (∀ r' : RecordIdx, r' ≠ r → u.message r' = s.message r') ∧
        u.message r = { s.message r with
          slots := (s.message r).slots.set j (some { a with state := .done }) })) ∧
     -- N, N
     (d.state = .pollWait → d.pollReply = some .nothing → isLetter 19 →
       ∃ u, exec (.characterReceived c mark) s = .next (judge c u) ∧ s.onlyCircuit u c answered ∧
       u.circuit c = { answers with line := (u.circuit c).line, dialogue := quiet }) ∧
     -- H, H, H
     (d.state = .pollWait → d.pollReply = some .traffic → d.matchPos = 2 → isLetter 13 →
       (let begun : RxState → Option RecordIdx → CircuitState := fun state filling => { answers with
          dialogue := { d with
            state := .inbound, answerTimer := none, pollReply := none, replyOwed := none, lineEndWait := false }
          recogniser := { x.recogniser with
            state := state, shift := .letters, held := [], somCount := 0, filling := filling
            silence := s.silenceLoad c } }
        (∀ r, s.lowestFree = some r → s.suspensionLawful → ∃ t, exec (.characterReceived c mark) s = .next t ∧
          t = { s with
            circuits := t.circuits, circuitDirty := t.circuitDirty, messages := t.messages
            messageDirty := t.messageDirty, officeDirty := true
            reports := (s.raiseAll answered).reports, pool := { s.pool with suspension := t.suspendedNow } } ∧
          s.othersKept t c ∧
          t.circuit c = { begun .headingLine (some r) with
            line := (t.circuit c).line
            recogniser := { (begun .headingLine (some r)).recogniser with
              headPos := .afterSom false, lineStart := false } } ∧
          (∀ r' : RecordIdx, r' ≠ r → t.message r' = s.message r') ∧
          t.message r = { Message.free (s.message r).generation with
            state := .filling, origin := some (.circuit c (some n)), hold := true }) ∧
        (s.lowestFree = none → ∃ t, exec (.characterReceived c mark) s = .next t ∧ s.onlyCircuit t c answered ∧
          t.circuit c = { begun .discard none with
            line := (t.circuit c).line
            recogniser := { (begun .discard none).recogniser with
              discardCause := some .tableFull, dropped := 0 } })))))

/-- CHARACTER_RECEIVED on a READY or HELD point circuit in the heading, its stop sample at mark or at space.
In HEADING_LINE shift characters and CR are passed over, and every other character moves through the positions of the
heading, or is its first deviation: the reason is written into the record, and the rest of the heading line and the
destination line are passed over (R20, R23, R24). At the SPACE after three digits other than 000 the channel number
goes into the record, and the sequence check is made once: as expected, or with nothing expected, it is accepted; the
number before the expected one marks a duplicate and leaves the number expected; any other raises SEQUENCE (R25).
In DEST_LINE, away from line start, SPACE and LF end a token: two letters are a code, which takes the next of 8
positions unless the list holds it; any other token is BAD_CODE; past 8 positions too-many-codes is set. The LF begins
the text, with NO_DESTINATION where no position is filled (R26). A mutilated character counts in the record (R31).
It rests on the model's reading in log 25. -/
def Obligations.HeadingAndDestinationLinesAreRead : Prop :=
  ∀ (c : Circuit) (mark : Bool) (s : State) (k : Nat) (bits : RelayChar) (r : RecordIdx),
    (s.circuit c).line.receiver = .assembling k bits → 95 ≤ k → s.inService c = true →
    s.isParty c = false → (s.recogniser c).filling = some r →
    (speedSettingInvalid (s.setting c 1) = false ∨ (s.circuit c).line.settingHeld = true) →
    (let x := s.circuit c
     let q := s.recogniser c
     let arrival : Recogniser :=
       { q with shift := shiftAfter q.shift (if mark then bits else 0) (!mark), silence := s.silenceLoad c }
     let counted : Message := { s.message r with
       mutilated := if mark then (s.message r).mutilated else min ((s.message r).mutilated + 1) 255 }
     let read : Recogniser → Message → List (Place × Word × ReportKind) → Prop := fun q' m' told =>
       ∃ t, exec (.characterReceived c mark) s = .next t ∧
       t = { s with
         circuits := t.circuits, circuitDirty := t.circuitDirty
         messages := t.messages, messageDirty := t.messageDirty
         reports := (s.raiseAll told).reports, officeDirty := (s.raiseAll told).officeDirty } ∧
       s.othersKept t c ∧
       t.circuit c = { x with line := (t.circuit c).line, recogniser := q' } ∧
       (∀ r' : RecordIdx, r' ≠ r → t.message r' = s.message r') ∧ t.message r = m'
     let passedOver : Prop := mark = true ∧ (bits = 2 ∨ bits = 4 ∨ bits = 5)
     let space : Prop := mark = true ∧ bits = 3
     let lineFeed : Prop := mark = true ∧ bits = 1
     let letter : Prop := mark = true ∧ q.shift = .letters ∧ 6 ≤ bits.toNat
     let digit : Nat → Prop := fun d =>
       mark = true ∧ q.shift = .figures ∧ d ≤ 9 ∧ bits.toNat = (if d = 0 then 15 else d + 5)
     let deviates : HeadingError → Prop := fun reason =>
       read { arrival with
           state := .skipHeading, lfToCome := if mark && decide (bits = 1) then 1 else 2
           lineStart := q.lineStart || (mark && decide (bits = 1)) }
         { counted with flags := { counted.flags with headingError := some reason } } []
     let at' : HeadPos → Prop := fun p => read { arrival with headPos := p } counted []
     let destLine : Prop := read { arrival with state := .destLine, token := .empty, lineStart := true } counted []
     (q.state = .headingLine →
       (passedOver → read arrival counted []) ∧
       (¬ passedOver →
         (∀ spaced, q.headPos = .afterSom spaced →
           (space → at' (.afterSom true)) ∧
           (∀ d, digit d → spaced = true → at' (.channel [d])) ∧
           (¬ space → (spaced = true → ∀ d, ¬ digit d) → deviates .badChannel)) ∧
         (∀ a, q.headPos = .channel [a] →
           (∀ d, digit d → at' (.channel [a, d])) ∧ ((∀ d, ¬ digit d) → deviates .badChannel)) ∧
         (∀ a b, q.headPos = .channel [a, b] →
           (∀ d, digit d → at' (.channel [a, b, d])) ∧ ((∀ d, ¬ digit d) → deviates .badChannel)) ∧
         (∀ a b e, q.headPos = .channel [a, b, e] →
           (let n := 100 * a + 10 * b + e
            let next : Nat → Nat := fun n => if n = 999 then 1 else n + 1
            let previous : Nat → Nat := fun n => if n = 1 then 999 else n - 1
            let numbered : Option Nat → Bool → List (Place × Word × ReportKind) → Prop :=
              fun expected duplicate told =>
                read { arrival with headPos := .afterChannel, expected := expected }
                  { counted with
                    channel := some n
                    flags := { counted.flags with duplicate := counted.flags.duplicate || duplicate } } told
            (space → 0 < n →
              (q.expected = none → numbered (some (next n)) false []) ∧
              (∀ expected, q.expected = some expected →
                (n = expected → numbered (some (next n)) false []) ∧
                (n ≠ expected → n = previous expected → numbered (some expected) true []) ∧
                (n ≠ expected → n ≠ previous expected →
                  numbered (some (next n)) false [(.circuit c none, s.tag r, .sequence expected)]))) ∧
            (¬ (space ∧ 0 < n) → deviates .badChannel))) ∧
         (q.headPos = .afterChannel →
           (space → at' .afterChannel) ∧
           (∀ p, letter → (p, bits) ∈ [(Precedence.t, (25 : RelayChar)), (.u, 26), (.r, 23), (.s, 24)] →
             read { arrival with headPos := .afterPrecedence false } { counted with precedence := some p } []) ∧
           (¬ space → ¬ (letter ∧ bits ∈ [(25 : RelayChar), 26, 23, 24]) → deviates .badPrecedence)) ∧
         (∀ spaced, q.headPos = .afterPrecedence spaced →
           (space → at' (.afterPrecedence true)) ∧
           (¬ space → spaced = false → deviates .badPrecedence) ∧
           (spaced = true → letter → at' (.origin bits none)) ∧
           (¬ space → spaced = true → ¬ letter → deviates .badOrigin)) ∧
         (∀ a, q.headPos = .origin a none →
           (letter → read { arrival with headPos := .origin a (some bits) }
             { counted with originCode := some ⟨a, bits⟩ } []) ∧
           (¬ letter → deviates .badOrigin)) ∧
         ((∃ a b, q.headPos = .origin a (some b)) ∨ q.headPos = .afterOrigin →
           (space → at' .afterOrigin) ∧ (lineFeed → destLine) ∧
           (¬ space → ¬ lineFeed → deviates .badOrigin)))) ∧
     (q.state = .skipHeading → q.lineStart = false →
       (lineFeed → read { arrival with
         lineStart := true, lfToCome := q.lfToCome - 1
         state := if q.lfToCome ≤ 1 then .text else .skipHeading } counted []) ∧
       (¬ lineFeed → read arrival counted [])) ∧
     (q.state = .destLine → q.lineStart = false →
       (let placed : Dest → Message := fun d =>
          if counted.destinations.length < 8 then { counted with destinations := counted.destinations ++ [d] }
          else { counted with flags := { counted.flags with tooManyCodes := true } }
        let ended : Message := match q.token with
          | .empty => counted
          | .two a b => if .code ⟨a, b⟩ ∈ counted.destinations then counted else placed (.code ⟨a, b⟩)
          | .one _ | .bad => placed .badCode
        (passedOver → read arrival counted []) ∧
        (space → read { arrival with token := .empty } ended []) ∧
        (lineFeed → read { arrival with token := .empty, state := .text, lineStart := true }
          (if ended.destinations = []
            then { ended with flags := { ended.flags with headingError := some .noDestination } } else ended) []) ∧
        (¬ passedOver → ¬ space → ¬ lineFeed →
          read { arrival with token := match q.token with
            | .empty => if mark && decide (q.shift = .letters) && decide (6 ≤ bits.toNat) then .one bits else .bad
            | .one a => if mark && decide (q.shift = .letters) && decide (6 ≤ bits.toNat) then .two a bits else .bad
            | .two _ _ | .bad => .bad } counted []))))
end

