-- ==== Sys2Proof/Laws/State.lean ====
section
/-! SUPPORT. What each update of the state leaves as it was, one lemma per field, and what it sets. -/

namespace Sys2Proof.Machine

variable (s : State)

/-! ### writeStore -/

@[simp] theorem State.writeStore_pending (a : Address) (v : Word) : (s.writeStore a v).pending = s.pending := rfl
@[simp] theorem State.writeStore_divider (a : Address) (v : Word) : (s.writeStore a v).divider = s.divider := rfl
@[simp] theorem State.writeStore_officeTicksDue (a : Address) (v : Word) : (s.writeStore a v).officeTicksDue = s.officeTicksDue := rfl
@[simp] theorem State.writeStore_tickCount (a : Address) (v : Word) : (s.writeStore a v).tickCount = s.tickCount := rfl
@[simp] theorem State.writeStore_minute (a : Address) (v : Word) : (s.writeStore a v).minute = s.minute := rfl
@[simp] theorem State.writeStore_circuits (a : Address) (v : Word) : (s.writeStore a v).circuits = s.circuits := rfl
@[simp] theorem State.writeStore_messages (a : Address) (v : Word) : (s.writeStore a v).messages = s.messages := rfl
@[simp] theorem State.writeStore_fills (a : Address) (v : Word) : (s.writeStore a v).fills = s.fills := rfl
@[simp] theorem State.writeStore_writer (a : Address) (v : Word) : (s.writeStore a v).writer = s.writer := rfl
@[simp] theorem State.writeStore_pool (a : Address) (v : Word) : (s.writeStore a v).pool = s.pool := rfl
@[simp] theorem State.writeStore_owners (a : Address) (v : Word) : (s.writeStore a v).owners = s.owners := rfl
@[simp] theorem State.writeStore_postOutcome (a : Address) (v : Word) : (s.writeStore a v).postOutcome = s.postOutcome := rfl
@[simp] theorem State.writeStore_walk (a : Address) (v : Word) : (s.writeStore a v).walk = s.walk := rfl
@[simp] theorem State.writeStore_strap (a : Address) (v : Word) : (s.writeStore a v).strap = s.strap := rfl
@[simp] theorem State.writeStore_strapBefore (a : Address) (v : Word) : (s.writeStore a v).strapBefore = s.strapBefore := rfl
@[simp] theorem State.writeStore_waiting (a : Address) (v : Word) : (s.writeStore a v).waiting = s.waiting := rfl
@[simp] theorem State.writeStore_readData (a : Address) (v : Word) : (s.writeStore a v).readData = s.readData := rfl
@[simp] theorem State.writeStore_pendingClear (a : Address) (v : Word) : (s.writeStore a v).pendingClear = s.pendingClear := rfl
@[simp] theorem State.writeStore_shadow (a : Address) (v : Word) : (s.writeStore a v).shadow = s.shadow := rfl
@[simp] theorem State.writeStore_arbiter (a : Address) (v : Word) : (s.writeStore a v).arbiter = s.arbiter := rfl
@[simp] theorem State.writeStore_fetchLast (a : Address) (v : Word) : (s.writeStore a v).fetchLast = s.fetchLast := rfl
@[simp] theorem State.writeStore_reports (a : Address) (v : Word) : (s.writeStore a v).reports = s.reports := rfl
@[simp] theorem State.writeStore_messageDirty (a : Address) (v : Word) : (s.writeStore a v).messageDirty = s.messageDirty := rfl
@[simp] theorem State.writeStore_circuitDirty (a : Address) (v : Word) : (s.writeStore a v).circuitDirty = s.circuitDirty := rfl
@[simp] theorem State.writeStore_officeDirty (a : Address) (v : Word) : (s.writeStore a v).officeDirty = s.officeDirty := rfl
@[simp] theorem State.writeStore_store (a : Address) (v : Word) :
    (s.writeStore a v).store = Sparse.put Config.unwrittenWord s.store a.toNat v := rfl

/-! ### writeRelay -/

@[simp] theorem State.writeRelay_pending (o : Nat) (v : Word) : (s.writeRelay o v).pending = s.pending := rfl
@[simp] theorem State.writeRelay_divider (o : Nat) (v : Word) : (s.writeRelay o v).divider = s.divider := rfl
@[simp] theorem State.writeRelay_officeTicksDue (o : Nat) (v : Word) : (s.writeRelay o v).officeTicksDue = s.officeTicksDue := rfl
@[simp] theorem State.writeRelay_tickCount (o : Nat) (v : Word) : (s.writeRelay o v).tickCount = s.tickCount := rfl
@[simp] theorem State.writeRelay_minute (o : Nat) (v : Word) : (s.writeRelay o v).minute = s.minute := rfl
@[simp] theorem State.writeRelay_circuits (o : Nat) (v : Word) : (s.writeRelay o v).circuits = s.circuits := rfl
@[simp] theorem State.writeRelay_messages (o : Nat) (v : Word) : (s.writeRelay o v).messages = s.messages := rfl
@[simp] theorem State.writeRelay_fills (o : Nat) (v : Word) : (s.writeRelay o v).fills = s.fills := rfl
@[simp] theorem State.writeRelay_writer (o : Nat) (v : Word) : (s.writeRelay o v).writer = s.writer := rfl
@[simp] theorem State.writeRelay_pool (o : Nat) (v : Word) : (s.writeRelay o v).pool = s.pool := rfl
@[simp] theorem State.writeRelay_owners (o : Nat) (v : Word) : (s.writeRelay o v).owners = s.owners := rfl
@[simp] theorem State.writeRelay_postOutcome (o : Nat) (v : Word) : (s.writeRelay o v).postOutcome = s.postOutcome := rfl
@[simp] theorem State.writeRelay_walk (o : Nat) (v : Word) : (s.writeRelay o v).walk = s.walk := rfl
@[simp] theorem State.writeRelay_strap (o : Nat) (v : Word) : (s.writeRelay o v).strap = s.strap := rfl
@[simp] theorem State.writeRelay_strapBefore (o : Nat) (v : Word) : (s.writeRelay o v).strapBefore = s.strapBefore := rfl
@[simp] theorem State.writeRelay_waiting (o : Nat) (v : Word) : (s.writeRelay o v).waiting = s.waiting := rfl
@[simp] theorem State.writeRelay_readData (o : Nat) (v : Word) : (s.writeRelay o v).readData = s.readData := rfl
@[simp] theorem State.writeRelay_pendingClear (o : Nat) (v : Word) : (s.writeRelay o v).pendingClear = s.pendingClear := rfl
@[simp] theorem State.writeRelay_shadow (o : Nat) (v : Word) : (s.writeRelay o v).shadow = s.shadow := rfl
@[simp] theorem State.writeRelay_arbiter (o : Nat) (v : Word) : (s.writeRelay o v).arbiter = s.arbiter := rfl
@[simp] theorem State.writeRelay_fetchLast (o : Nat) (v : Word) : (s.writeRelay o v).fetchLast = s.fetchLast := rfl
@[simp] theorem State.writeRelay_reports (o : Nat) (v : Word) : (s.writeRelay o v).reports = s.reports := rfl
@[simp] theorem State.writeRelay_messageDirty (o : Nat) (v : Word) : (s.writeRelay o v).messageDirty = s.messageDirty := rfl
@[simp] theorem State.writeRelay_circuitDirty (o : Nat) (v : Word) : (s.writeRelay o v).circuitDirty = s.circuitDirty := rfl
@[simp] theorem State.writeRelay_officeDirty (o : Nat) (v : Word) : (s.writeRelay o v).officeDirty = s.officeDirty := rfl

/-! ### setShadow -/

@[simp] theorem State.setShadow_pending (o : Nat) (v : Word) : (s.setShadow o v).pending = s.pending := rfl
@[simp] theorem State.setShadow_divider (o : Nat) (v : Word) : (s.setShadow o v).divider = s.divider := rfl
@[simp] theorem State.setShadow_officeTicksDue (o : Nat) (v : Word) : (s.setShadow o v).officeTicksDue = s.officeTicksDue := rfl
@[simp] theorem State.setShadow_tickCount (o : Nat) (v : Word) : (s.setShadow o v).tickCount = s.tickCount := rfl
@[simp] theorem State.setShadow_minute (o : Nat) (v : Word) : (s.setShadow o v).minute = s.minute := rfl
@[simp] theorem State.setShadow_circuits (o : Nat) (v : Word) : (s.setShadow o v).circuits = s.circuits := rfl
@[simp] theorem State.setShadow_messages (o : Nat) (v : Word) : (s.setShadow o v).messages = s.messages := rfl
@[simp] theorem State.setShadow_fills (o : Nat) (v : Word) : (s.setShadow o v).fills = s.fills := rfl
@[simp] theorem State.setShadow_writer (o : Nat) (v : Word) : (s.setShadow o v).writer = s.writer := rfl
@[simp] theorem State.setShadow_pool (o : Nat) (v : Word) : (s.setShadow o v).pool = s.pool := rfl
@[simp] theorem State.setShadow_owners (o : Nat) (v : Word) : (s.setShadow o v).owners = s.owners := rfl
@[simp] theorem State.setShadow_postOutcome (o : Nat) (v : Word) : (s.setShadow o v).postOutcome = s.postOutcome := rfl
@[simp] theorem State.setShadow_walk (o : Nat) (v : Word) : (s.setShadow o v).walk = s.walk := rfl
@[simp] theorem State.setShadow_strap (o : Nat) (v : Word) : (s.setShadow o v).strap = s.strap := rfl
@[simp] theorem State.setShadow_strapBefore (o : Nat) (v : Word) : (s.setShadow o v).strapBefore = s.strapBefore := rfl
@[simp] theorem State.setShadow_waiting (o : Nat) (v : Word) : (s.setShadow o v).waiting = s.waiting := rfl
@[simp] theorem State.setShadow_readData (o : Nat) (v : Word) : (s.setShadow o v).readData = s.readData := rfl
@[simp] theorem State.setShadow_pendingClear (o : Nat) (v : Word) : (s.setShadow o v).pendingClear = s.pendingClear := rfl
@[simp] theorem State.setShadow_arbiter (o : Nat) (v : Word) : (s.setShadow o v).arbiter = s.arbiter := rfl
@[simp] theorem State.setShadow_fetchLast (o : Nat) (v : Word) : (s.setShadow o v).fetchLast = s.fetchLast := rfl
@[simp] theorem State.setShadow_reports (o : Nat) (v : Word) : (s.setShadow o v).reports = s.reports := rfl
@[simp] theorem State.setShadow_messageDirty (o : Nat) (v : Word) : (s.setShadow o v).messageDirty = s.messageDirty := rfl
@[simp] theorem State.setShadow_circuitDirty (o : Nat) (v : Word) : (s.setShadow o v).circuitDirty = s.circuitDirty := rfl
@[simp] theorem State.setShadow_officeDirty (o : Nat) (v : Word) : (s.setShadow o v).officeDirty = s.officeDirty := rfl
@[simp] theorem State.setShadow_store (o : Nat) (v : Word) : (s.setShadow o v).store = s.store := rfl
@[simp] theorem State.setShadow_shadow (o : Nat) (v : Word) :
    (s.setShadow o v).shadow = Sparse.put none s.shadow o (some v) := rfl

/-! ### setOwner -/

@[simp] theorem State.setOwner_pending (b : Nat) (o : Owner) : (s.setOwner b o).pending = s.pending := rfl
@[simp] theorem State.setOwner_divider (b : Nat) (o : Owner) : (s.setOwner b o).divider = s.divider := rfl
@[simp] theorem State.setOwner_officeTicksDue (b : Nat) (o : Owner) : (s.setOwner b o).officeTicksDue = s.officeTicksDue := rfl
@[simp] theorem State.setOwner_tickCount (b : Nat) (o : Owner) : (s.setOwner b o).tickCount = s.tickCount := rfl
@[simp] theorem State.setOwner_minute (b : Nat) (o : Owner) : (s.setOwner b o).minute = s.minute := rfl
@[simp] theorem State.setOwner_circuits (b : Nat) (o : Owner) : (s.setOwner b o).circuits = s.circuits := rfl
@[simp] theorem State.setOwner_messages (b : Nat) (o : Owner) : (s.setOwner b o).messages = s.messages := rfl
@[simp] theorem State.setOwner_fills (b : Nat) (o : Owner) : (s.setOwner b o).fills = s.fills := rfl
@[simp] theorem State.setOwner_writer (b : Nat) (o : Owner) : (s.setOwner b o).writer = s.writer := rfl
@[simp] theorem State.setOwner_pool (b : Nat) (o : Owner) : (s.setOwner b o).pool = s.pool := rfl
@[simp] theorem State.setOwner_postOutcome (b : Nat) (o : Owner) : (s.setOwner b o).postOutcome = s.postOutcome := rfl
@[simp] theorem State.setOwner_walk (b : Nat) (o : Owner) : (s.setOwner b o).walk = s.walk := rfl
@[simp] theorem State.setOwner_strap (b : Nat) (o : Owner) : (s.setOwner b o).strap = s.strap := rfl
@[simp] theorem State.setOwner_strapBefore (b : Nat) (o : Owner) : (s.setOwner b o).strapBefore = s.strapBefore := rfl
@[simp] theorem State.setOwner_waiting (b : Nat) (o : Owner) : (s.setOwner b o).waiting = s.waiting := rfl
@[simp] theorem State.setOwner_readData (b : Nat) (o : Owner) : (s.setOwner b o).readData = s.readData := rfl
@[simp] theorem State.setOwner_pendingClear (b : Nat) (o : Owner) : (s.setOwner b o).pendingClear = s.pendingClear := rfl
@[simp] theorem State.setOwner_shadow (b : Nat) (o : Owner) : (s.setOwner b o).shadow = s.shadow := rfl
@[simp] theorem State.setOwner_arbiter (b : Nat) (o : Owner) : (s.setOwner b o).arbiter = s.arbiter := rfl
@[simp] theorem State.setOwner_fetchLast (b : Nat) (o : Owner) : (s.setOwner b o).fetchLast = s.fetchLast := rfl
@[simp] theorem State.setOwner_reports (b : Nat) (o : Owner) : (s.setOwner b o).reports = s.reports := rfl
@[simp] theorem State.setOwner_messageDirty (b : Nat) (o : Owner) : (s.setOwner b o).messageDirty = s.messageDirty := rfl
@[simp] theorem State.setOwner_circuitDirty (b : Nat) (o : Owner) : (s.setOwner b o).circuitDirty = s.circuitDirty := rfl
@[simp] theorem State.setOwner_officeDirty (b : Nat) (o : Owner) : (s.setOwner b o).officeDirty = s.officeDirty := rfl
@[simp] theorem State.setOwner_store (b : Nat) (o : Owner) : (s.setOwner b o).store = s.store := rfl
@[simp] theorem State.setOwner_owners (b : Nat) (o : Owner) :
    (s.setOwner b o).owners = Sparse.put Owner.processor s.owners b o := rfl

/-! ### rehome -/

@[simp] theorem State.rehome_pending (r : RecordIdx) (o : Owner) : (s.rehome r o).pending = s.pending := rfl
@[simp] theorem State.rehome_divider (r : RecordIdx) (o : Owner) : (s.rehome r o).divider = s.divider := rfl
@[simp] theorem State.rehome_officeTicksDue (r : RecordIdx) (o : Owner) : (s.rehome r o).officeTicksDue = s.officeTicksDue := rfl
@[simp] theorem State.rehome_tickCount (r : RecordIdx) (o : Owner) : (s.rehome r o).tickCount = s.tickCount := rfl
@[simp] theorem State.rehome_minute (r : RecordIdx) (o : Owner) : (s.rehome r o).minute = s.minute := rfl
@[simp] theorem State.rehome_circuits (r : RecordIdx) (o : Owner) : (s.rehome r o).circuits = s.circuits := rfl
@[simp] theorem State.rehome_messages (r : RecordIdx) (o : Owner) : (s.rehome r o).messages = s.messages := rfl
@[simp] theorem State.rehome_fills (r : RecordIdx) (o : Owner) : (s.rehome r o).fills = s.fills := rfl
@[simp] theorem State.rehome_writer (r : RecordIdx) (o : Owner) : (s.rehome r o).writer = s.writer := rfl
@[simp] theorem State.rehome_pool (r : RecordIdx) (o : Owner) : (s.rehome r o).pool = s.pool := rfl
@[simp] theorem State.rehome_postOutcome (r : RecordIdx) (o : Owner) : (s.rehome r o).postOutcome = s.postOutcome := rfl
@[simp] theorem State.rehome_walk (r : RecordIdx) (o : Owner) : (s.rehome r o).walk = s.walk := rfl
@[simp] theorem State.rehome_strap (r : RecordIdx) (o : Owner) : (s.rehome r o).strap = s.strap := rfl
@[simp] theorem State.rehome_strapBefore (r : RecordIdx) (o : Owner) : (s.rehome r o).strapBefore = s.strapBefore := rfl
@[simp] theorem State.rehome_waiting (r : RecordIdx) (o : Owner) : (s.rehome r o).waiting = s.waiting := rfl
@[simp] theorem State.rehome_readData (r : RecordIdx) (o : Owner) : (s.rehome r o).readData = s.readData := rfl
@[simp] theorem State.rehome_pendingClear (r : RecordIdx) (o : Owner) : (s.rehome r o).pendingClear = s.pendingClear := rfl
@[simp] theorem State.rehome_shadow (r : RecordIdx) (o : Owner) : (s.rehome r o).shadow = s.shadow := rfl
@[simp] theorem State.rehome_arbiter (r : RecordIdx) (o : Owner) : (s.rehome r o).arbiter = s.arbiter := rfl
@[simp] theorem State.rehome_fetchLast (r : RecordIdx) (o : Owner) : (s.rehome r o).fetchLast = s.fetchLast := rfl
@[simp] theorem State.rehome_reports (r : RecordIdx) (o : Owner) : (s.rehome r o).reports = s.reports := rfl
@[simp] theorem State.rehome_messageDirty (r : RecordIdx) (o : Owner) : (s.rehome r o).messageDirty = s.messageDirty := rfl
@[simp] theorem State.rehome_circuitDirty (r : RecordIdx) (o : Owner) : (s.rehome r o).circuitDirty = s.circuitDirty := rfl
@[simp] theorem State.rehome_officeDirty (r : RecordIdx) (o : Owner) : (s.rehome r o).officeDirty = s.officeDirty := rfl
@[simp] theorem State.rehome_store (r : RecordIdx) (o : Owner) : (s.rehome r o).store = s.store := rfl

/-! ### setCircuit -/

@[simp] theorem State.setCircuit_pending (c : Circuit) (x : CircuitState) : (s.setCircuit c x).pending = s.pending := rfl
@[simp] theorem State.setCircuit_divider (c : Circuit) (x : CircuitState) : (s.setCircuit c x).divider = s.divider := rfl
@[simp] theorem State.setCircuit_officeTicksDue (c : Circuit) (x : CircuitState) : (s.setCircuit c x).officeTicksDue = s.officeTicksDue := rfl
@[simp] theorem State.setCircuit_tickCount (c : Circuit) (x : CircuitState) : (s.setCircuit c x).tickCount = s.tickCount := rfl
@[simp] theorem State.setCircuit_minute (c : Circuit) (x : CircuitState) : (s.setCircuit c x).minute = s.minute := rfl
@[simp] theorem State.setCircuit_messages (c : Circuit) (x : CircuitState) : (s.setCircuit c x).messages = s.messages := rfl
@[simp] theorem State.setCircuit_fills (c : Circuit) (x : CircuitState) : (s.setCircuit c x).fills = s.fills := rfl
@[simp] theorem State.setCircuit_writer (c : Circuit) (x : CircuitState) : (s.setCircuit c x).writer = s.writer := rfl
@[simp] theorem State.setCircuit_pool (c : Circuit) (x : CircuitState) : (s.setCircuit c x).pool = s.pool := rfl
@[simp] theorem State.setCircuit_owners (c : Circuit) (x : CircuitState) : (s.setCircuit c x).owners = s.owners := rfl
@[simp] theorem State.setCircuit_postOutcome (c : Circuit) (x : CircuitState) : (s.setCircuit c x).postOutcome = s.postOutcome := rfl
@[simp] theorem State.setCircuit_walk (c : Circuit) (x : CircuitState) : (s.setCircuit c x).walk = s.walk := rfl
@[simp] theorem State.setCircuit_strap (c : Circuit) (x : CircuitState) : (s.setCircuit c x).strap = s.strap := rfl
@[simp] theorem State.setCircuit_strapBefore (c : Circuit) (x : CircuitState) : (s.setCircuit c x).strapBefore = s.strapBefore := rfl
@[simp] theorem State.setCircuit_waiting (c : Circuit) (x : CircuitState) : (s.setCircuit c x).waiting = s.waiting := rfl
@[simp] theorem State.setCircuit_readData (c : Circuit) (x : CircuitState) : (s.setCircuit c x).readData = s.readData := rfl
@[simp] theorem State.setCircuit_pendingClear (c : Circuit) (x : CircuitState) : (s.setCircuit c x).pendingClear = s.pendingClear := rfl
@[simp] theorem State.setCircuit_shadow (c : Circuit) (x : CircuitState) : (s.setCircuit c x).shadow = s.shadow := rfl
@[simp] theorem State.setCircuit_arbiter (c : Circuit) (x : CircuitState) : (s.setCircuit c x).arbiter = s.arbiter := rfl
@[simp] theorem State.setCircuit_fetchLast (c : Circuit) (x : CircuitState) : (s.setCircuit c x).fetchLast = s.fetchLast := rfl
@[simp] theorem State.setCircuit_reports (c : Circuit) (x : CircuitState) : (s.setCircuit c x).reports = s.reports := rfl
@[simp] theorem State.setCircuit_messageDirty (c : Circuit) (x : CircuitState) : (s.setCircuit c x).messageDirty = s.messageDirty := rfl
@[simp] theorem State.setCircuit_officeDirty (c : Circuit) (x : CircuitState) : (s.setCircuit c x).officeDirty = s.officeDirty := rfl
@[simp] theorem State.setCircuit_store (c : Circuit) (x : CircuitState) : (s.setCircuit c x).store = s.store := rfl
@[simp] theorem State.setCircuit_circuits (c : Circuit) (x : CircuitState) :
    (s.setCircuit c x).circuits = s.circuits.set c x := rfl

/-! ### setMessage -/

@[simp] theorem State.setMessage_pending (r : RecordIdx) (m : Message) : (s.setMessage r m).pending = s.pending := rfl
@[simp] theorem State.setMessage_divider (r : RecordIdx) (m : Message) : (s.setMessage r m).divider = s.divider := rfl
@[simp] theorem State.setMessage_officeTicksDue (r : RecordIdx) (m : Message) : (s.setMessage r m).officeTicksDue = s.officeTicksDue := rfl
@[simp] theorem State.setMessage_tickCount (r : RecordIdx) (m : Message) : (s.setMessage r m).tickCount = s.tickCount := rfl
@[simp] theorem State.setMessage_minute (r : RecordIdx) (m : Message) : (s.setMessage r m).minute = s.minute := rfl
@[simp] theorem State.setMessage_circuits (r : RecordIdx) (m : Message) : (s.setMessage r m).circuits = s.circuits := rfl
@[simp] theorem State.setMessage_fills (r : RecordIdx) (m : Message) : (s.setMessage r m).fills = s.fills := rfl
@[simp] theorem State.setMessage_writer (r : RecordIdx) (m : Message) : (s.setMessage r m).writer = s.writer := rfl
@[simp] theorem State.setMessage_pool (r : RecordIdx) (m : Message) : (s.setMessage r m).pool = s.pool := rfl
@[simp] theorem State.setMessage_owners (r : RecordIdx) (m : Message) : (s.setMessage r m).owners = s.owners := rfl
@[simp] theorem State.setMessage_postOutcome (r : RecordIdx) (m : Message) : (s.setMessage r m).postOutcome = s.postOutcome := rfl
@[simp] theorem State.setMessage_walk (r : RecordIdx) (m : Message) : (s.setMessage r m).walk = s.walk := rfl
@[simp] theorem State.setMessage_strap (r : RecordIdx) (m : Message) : (s.setMessage r m).strap = s.strap := rfl
@[simp] theorem State.setMessage_strapBefore (r : RecordIdx) (m : Message) : (s.setMessage r m).strapBefore = s.strapBefore := rfl
@[simp] theorem State.setMessage_waiting (r : RecordIdx) (m : Message) : (s.setMessage r m).waiting = s.waiting := rfl
@[simp] theorem State.setMessage_readData (r : RecordIdx) (m : Message) : (s.setMessage r m).readData = s.readData := rfl
@[simp] theorem State.setMessage_pendingClear (r : RecordIdx) (m : Message) : (s.setMessage r m).pendingClear = s.pendingClear := rfl
@[simp] theorem State.setMessage_shadow (r : RecordIdx) (m : Message) : (s.setMessage r m).shadow = s.shadow := rfl
@[simp] theorem State.setMessage_arbiter (r : RecordIdx) (m : Message) : (s.setMessage r m).arbiter = s.arbiter := rfl
@[simp] theorem State.setMessage_fetchLast (r : RecordIdx) (m : Message) : (s.setMessage r m).fetchLast = s.fetchLast := rfl
@[simp] theorem State.setMessage_reports (r : RecordIdx) (m : Message) : (s.setMessage r m).reports = s.reports := rfl
@[simp] theorem State.setMessage_circuitDirty (r : RecordIdx) (m : Message) : (s.setMessage r m).circuitDirty = s.circuitDirty := rfl
@[simp] theorem State.setMessage_store (r : RecordIdx) (m : Message) : (s.setMessage r m).store = s.store := rfl
@[simp] theorem State.setMessage_messages (r : RecordIdx) (m : Message) :
    (s.setMessage r m).messages = s.messages.set r m := rfl

/-! ### setFill -/

@[simp] theorem State.setFill_pending (r : RecordIdx) (f : Fill) : (s.setFill r f).pending = s.pending := rfl
@[simp] theorem State.setFill_divider (r : RecordIdx) (f : Fill) : (s.setFill r f).divider = s.divider := rfl
@[simp] theorem State.setFill_officeTicksDue (r : RecordIdx) (f : Fill) : (s.setFill r f).officeTicksDue = s.officeTicksDue := rfl
@[simp] theorem State.setFill_tickCount (r : RecordIdx) (f : Fill) : (s.setFill r f).tickCount = s.tickCount := rfl
@[simp] theorem State.setFill_minute (r : RecordIdx) (f : Fill) : (s.setFill r f).minute = s.minute := rfl
@[simp] theorem State.setFill_circuits (r : RecordIdx) (f : Fill) : (s.setFill r f).circuits = s.circuits := rfl
@[simp] theorem State.setFill_messages (r : RecordIdx) (f : Fill) : (s.setFill r f).messages = s.messages := rfl
@[simp] theorem State.setFill_writer (r : RecordIdx) (f : Fill) : (s.setFill r f).writer = s.writer := rfl
@[simp] theorem State.setFill_pool (r : RecordIdx) (f : Fill) : (s.setFill r f).pool = s.pool := rfl
@[simp] theorem State.setFill_owners (r : RecordIdx) (f : Fill) : (s.setFill r f).owners = s.owners := rfl
@[simp] theorem State.setFill_postOutcome (r : RecordIdx) (f : Fill) : (s.setFill r f).postOutcome = s.postOutcome := rfl
@[simp] theorem State.setFill_walk (r : RecordIdx) (f : Fill) : (s.setFill r f).walk = s.walk := rfl
@[simp] theorem State.setFill_strap (r : RecordIdx) (f : Fill) : (s.setFill r f).strap = s.strap := rfl
@[simp] theorem State.setFill_strapBefore (r : RecordIdx) (f : Fill) : (s.setFill r f).strapBefore = s.strapBefore := rfl
@[simp] theorem State.setFill_waiting (r : RecordIdx) (f : Fill) : (s.setFill r f).waiting = s.waiting := rfl
@[simp] theorem State.setFill_readData (r : RecordIdx) (f : Fill) : (s.setFill r f).readData = s.readData := rfl
@[simp] theorem State.setFill_pendingClear (r : RecordIdx) (f : Fill) : (s.setFill r f).pendingClear = s.pendingClear := rfl
@[simp] theorem State.setFill_shadow (r : RecordIdx) (f : Fill) : (s.setFill r f).shadow = s.shadow := rfl
@[simp] theorem State.setFill_arbiter (r : RecordIdx) (f : Fill) : (s.setFill r f).arbiter = s.arbiter := rfl
@[simp] theorem State.setFill_fetchLast (r : RecordIdx) (f : Fill) : (s.setFill r f).fetchLast = s.fetchLast := rfl
@[simp] theorem State.setFill_reports (r : RecordIdx) (f : Fill) : (s.setFill r f).reports = s.reports := rfl
@[simp] theorem State.setFill_messageDirty (r : RecordIdx) (f : Fill) : (s.setFill r f).messageDirty = s.messageDirty := rfl
@[simp] theorem State.setFill_circuitDirty (r : RecordIdx) (f : Fill) : (s.setFill r f).circuitDirty = s.circuitDirty := rfl
@[simp] theorem State.setFill_officeDirty (r : RecordIdx) (f : Fill) : (s.setFill r f).officeDirty = s.officeDirty := rfl
@[simp] theorem State.setFill_store (r : RecordIdx) (f : Fill) : (s.setFill r f).store = s.store := rfl
@[simp] theorem State.setFill_fills (r : RecordIdx) (f : Fill) :
    (s.setFill r f).fills = s.fills.set r f := rfl

/-! ### setPool -/

@[simp] theorem State.setPool_pending (p : Pool) : (s.setPool p).pending = s.pending := rfl
@[simp] theorem State.setPool_divider (p : Pool) : (s.setPool p).divider = s.divider := rfl
@[simp] theorem State.setPool_officeTicksDue (p : Pool) : (s.setPool p).officeTicksDue = s.officeTicksDue := rfl
@[simp] theorem State.setPool_tickCount (p : Pool) : (s.setPool p).tickCount = s.tickCount := rfl
@[simp] theorem State.setPool_minute (p : Pool) : (s.setPool p).minute = s.minute := rfl
@[simp] theorem State.setPool_circuits (p : Pool) : (s.setPool p).circuits = s.circuits := rfl
@[simp] theorem State.setPool_messages (p : Pool) : (s.setPool p).messages = s.messages := rfl
@[simp] theorem State.setPool_fills (p : Pool) : (s.setPool p).fills = s.fills := rfl
@[simp] theorem State.setPool_writer (p : Pool) : (s.setPool p).writer = s.writer := rfl
@[simp] theorem State.setPool_owners (p : Pool) : (s.setPool p).owners = s.owners := rfl
@[simp] theorem State.setPool_postOutcome (p : Pool) : (s.setPool p).postOutcome = s.postOutcome := rfl
@[simp] theorem State.setPool_walk (p : Pool) : (s.setPool p).walk = s.walk := rfl
@[simp] theorem State.setPool_strap (p : Pool) : (s.setPool p).strap = s.strap := rfl
@[simp] theorem State.setPool_strapBefore (p : Pool) : (s.setPool p).strapBefore = s.strapBefore := rfl
@[simp] theorem State.setPool_waiting (p : Pool) : (s.setPool p).waiting = s.waiting := rfl
@[simp] theorem State.setPool_readData (p : Pool) : (s.setPool p).readData = s.readData := rfl
@[simp] theorem State.setPool_pendingClear (p : Pool) : (s.setPool p).pendingClear = s.pendingClear := rfl
@[simp] theorem State.setPool_shadow (p : Pool) : (s.setPool p).shadow = s.shadow := rfl
@[simp] theorem State.setPool_arbiter (p : Pool) : (s.setPool p).arbiter = s.arbiter := rfl
@[simp] theorem State.setPool_fetchLast (p : Pool) : (s.setPool p).fetchLast = s.fetchLast := rfl
@[simp] theorem State.setPool_reports (p : Pool) : (s.setPool p).reports = s.reports := rfl
@[simp] theorem State.setPool_messageDirty (p : Pool) : (s.setPool p).messageDirty = s.messageDirty := rfl
@[simp] theorem State.setPool_circuitDirty (p : Pool) : (s.setPool p).circuitDirty = s.circuitDirty := rfl
@[simp] theorem State.setPool_store (p : Pool) : (s.setPool p).store = s.store := rfl
@[simp] theorem State.setPool_pool (p : Pool) :
    (s.setPool p).pool = p := rfl

/-! ### setPost -/

@[simp] theorem State.setPost_pending (w : Option Walk) (o : PostOutcome) : (s.setPost w o).pending = s.pending := rfl
@[simp] theorem State.setPost_divider (w : Option Walk) (o : PostOutcome) : (s.setPost w o).divider = s.divider := rfl
@[simp] theorem State.setPost_officeTicksDue (w : Option Walk) (o : PostOutcome) : (s.setPost w o).officeTicksDue = s.officeTicksDue := rfl
@[simp] theorem State.setPost_tickCount (w : Option Walk) (o : PostOutcome) : (s.setPost w o).tickCount = s.tickCount := rfl
@[simp] theorem State.setPost_minute (w : Option Walk) (o : PostOutcome) : (s.setPost w o).minute = s.minute := rfl
@[simp] theorem State.setPost_circuits (w : Option Walk) (o : PostOutcome) : (s.setPost w o).circuits = s.circuits := rfl
@[simp] theorem State.setPost_messages (w : Option Walk) (o : PostOutcome) : (s.setPost w o).messages = s.messages := rfl
@[simp] theorem State.setPost_fills (w : Option Walk) (o : PostOutcome) : (s.setPost w o).fills = s.fills := rfl
@[simp] theorem State.setPost_writer (w : Option Walk) (o : PostOutcome) : (s.setPost w o).writer = s.writer := rfl
@[simp] theorem State.setPost_pool (w : Option Walk) (o : PostOutcome) : (s.setPost w o).pool = s.pool := rfl
@[simp] theorem State.setPost_owners (w : Option Walk) (o : PostOutcome) : (s.setPost w o).owners = s.owners := rfl
@[simp] theorem State.setPost_strap (w : Option Walk) (o : PostOutcome) : (s.setPost w o).strap = s.strap := rfl
@[simp] theorem State.setPost_strapBefore (w : Option Walk) (o : PostOutcome) : (s.setPost w o).strapBefore = s.strapBefore := rfl
@[simp] theorem State.setPost_waiting (w : Option Walk) (o : PostOutcome) : (s.setPost w o).waiting = s.waiting := rfl
@[simp] theorem State.setPost_readData (w : Option Walk) (o : PostOutcome) : (s.setPost w o).readData = s.readData := rfl
@[simp] theorem State.setPost_pendingClear (w : Option Walk) (o : PostOutcome) : (s.setPost w o).pendingClear = s.pendingClear := rfl
@[simp] theorem State.setPost_shadow (w : Option Walk) (o : PostOutcome) : (s.setPost w o).shadow = s.shadow := rfl
@[simp] theorem State.setPost_arbiter (w : Option Walk) (o : PostOutcome) : (s.setPost w o).arbiter = s.arbiter := rfl
@[simp] theorem State.setPost_fetchLast (w : Option Walk) (o : PostOutcome) : (s.setPost w o).fetchLast = s.fetchLast := rfl
@[simp] theorem State.setPost_reports (w : Option Walk) (o : PostOutcome) : (s.setPost w o).reports = s.reports := rfl
@[simp] theorem State.setPost_messageDirty (w : Option Walk) (o : PostOutcome) : (s.setPost w o).messageDirty = s.messageDirty := rfl
@[simp] theorem State.setPost_circuitDirty (w : Option Walk) (o : PostOutcome) : (s.setPost w o).circuitDirty = s.circuitDirty := rfl
@[simp] theorem State.setPost_store (w : Option Walk) (o : PostOutcome) : (s.setPost w o).store = s.store := rfl
@[simp] theorem State.setPost_walk (w : Option Walk) (o : PostOutcome) :
    (s.setPost w o).walk = w := rfl
@[simp] theorem State.setPost_postOutcome (w : Option Walk) (o : PostOutcome) :
    (s.setPost w o).postOutcome = o := rfl

/-! ### raise (R174) -/

@[simp] theorem State.raise_pending (p : Place) (g : Word) (k : ReportKind) :
    (s.raise p g k).pending = s.pending := by unfold State.raise; split <;> rfl
@[simp] theorem State.raise_divider (p : Place) (g : Word) (k : ReportKind) :
    (s.raise p g k).divider = s.divider := by unfold State.raise; split <;> rfl
@[simp] theorem State.raise_officeTicksDue (p : Place) (g : Word) (k : ReportKind) :
    (s.raise p g k).officeTicksDue = s.officeTicksDue := by unfold State.raise; split <;> rfl
@[simp] theorem State.raise_tickCount (p : Place) (g : Word) (k : ReportKind) :
    (s.raise p g k).tickCount = s.tickCount := by unfold State.raise; split <;> rfl
@[simp] theorem State.raise_minute (p : Place) (g : Word) (k : ReportKind) :
    (s.raise p g k).minute = s.minute := by unfold State.raise; split <;> rfl
@[simp] theorem State.raise_circuits (p : Place) (g : Word) (k : ReportKind) :
    (s.raise p g k).circuits = s.circuits := by unfold State.raise; split <;> rfl
@[simp] theorem State.raise_messages (p : Place) (g : Word) (k : ReportKind) :
    (s.raise p g k).messages = s.messages := by unfold State.raise; split <;> rfl
@[simp] theorem State.raise_fills (p : Place) (g : Word) (k : ReportKind) :
    (s.raise p g k).fills = s.fills := by unfold State.raise; split <;> rfl
@[simp] theorem State.raise_writer (p : Place) (g : Word) (k : ReportKind) :
    (s.raise p g k).writer = s.writer := by unfold State.raise; split <;> rfl
@[simp] theorem State.raise_pool (p : Place) (g : Word) (k : ReportKind) :
    (s.raise p g k).pool = s.pool := by unfold State.raise; split <;> rfl
@[simp] theorem State.raise_owners (p : Place) (g : Word) (k : ReportKind) :
    (s.raise p g k).owners = s.owners := by unfold State.raise; split <;> rfl
@[simp] theorem State.raise_postOutcome (p : Place) (g : Word) (k : ReportKind) :
    (s.raise p g k).postOutcome = s.postOutcome := by unfold State.raise; split <;> rfl
@[simp] theorem State.raise_walk (p : Place) (g : Word) (k : ReportKind) :
    (s.raise p g k).walk = s.walk := by unfold State.raise; split <;> rfl
@[simp] theorem State.raise_strap (p : Place) (g : Word) (k : ReportKind) :
    (s.raise p g k).strap = s.strap := by unfold State.raise; split <;> rfl
@[simp] theorem State.raise_strapBefore (p : Place) (g : Word) (k : ReportKind) :
    (s.raise p g k).strapBefore = s.strapBefore := by unfold State.raise; split <;> rfl
@[simp] theorem State.raise_waiting (p : Place) (g : Word) (k : ReportKind) :
    (s.raise p g k).waiting = s.waiting := by unfold State.raise; split <;> rfl
@[simp] theorem State.raise_readData (p : Place) (g : Word) (k : ReportKind) :
    (s.raise p g k).readData = s.readData := by unfold State.raise; split <;> rfl
@[simp] theorem State.raise_pendingClear (p : Place) (g : Word) (k : ReportKind) :
    (s.raise p g k).pendingClear = s.pendingClear := by unfold State.raise; split <;> rfl
@[simp] theorem State.raise_shadow (p : Place) (g : Word) (k : ReportKind) :
    (s.raise p g k).shadow = s.shadow := by unfold State.raise; split <;> rfl
@[simp] theorem State.raise_arbiter (p : Place) (g : Word) (k : ReportKind) :
    (s.raise p g k).arbiter = s.arbiter := by unfold State.raise; split <;> rfl
@[simp] theorem State.raise_fetchLast (p : Place) (g : Word) (k : ReportKind) :
    (s.raise p g k).fetchLast = s.fetchLast := by unfold State.raise; split <;> rfl
@[simp] theorem State.raise_messageDirty (p : Place) (g : Word) (k : ReportKind) :
    (s.raise p g k).messageDirty = s.messageDirty := by unfold State.raise; split <;> rfl
@[simp] theorem State.raise_circuitDirty (p : Place) (g : Word) (k : ReportKind) :
    (s.raise p g k).circuitDirty = s.circuitDirty := by unfold State.raise; split <;> rfl
@[simp] theorem State.raise_store (p : Place) (g : Word) (k : ReportKind) :
    (s.raise p g k).store = s.store := by unfold State.raise; split <;> rfl
@[simp] theorem State.raise_produce (p : Place) (g : Word) (k : ReportKind) :
    (s.raise p g k).reports.produce = s.reports.produce := by unfold State.raise; split <;> rfl
@[simp] theorem State.raise_consume (p : Place) (g : Word) (k : ReportKind) :
    (s.raise p g k).reports.consume = s.reports.consume := by unfold State.raise; split <;> rfl
@[simp] theorem State.raise_inRun (p : Place) (g : Word) (k : ReportKind) :
    (s.raise p g k).reports.inRun = s.reports.inRun := by unfold State.raise; split <;> rfl
@[simp] theorem State.raise_attention (p : Place) (g : Word) (k : ReportKind) :
    (s.raise p g k).reports.attention = s.reports.attention := by unfold State.raise; split <;> rfl

/-- A report that finds a place joins the tail of the pending list (R174). -/
theorem State.raise_pending_of_room (p : Place) (g : Word) (k : ReportKind)
    (h : s.reports.pending.length < Config.pendingReports) :
    (s.raise p g k).reports.pending = s.reports.pending ++ [⟨p, g, k, s.minute⟩] := by
  unfold State.raise; simp [h]

/-- A report that finds the pending list full is lost and counted (R174). -/
theorem State.raise_of_full (p : Place) (g : Word) (k : ReportKind)
    (h : ¬ s.reports.pending.length < Config.pendingReports) :
    (s.raise p g k).reports = { s.reports with lost := min (s.reports.lost + 1) 65535 } := by
  unfold State.raise; simp [h]

/-! ### Reading back -/

@[simp] theorem State.circuit_setCircuit_self (c : Circuit) (x : CircuitState) :
    (s.setCircuit c x).circuit c = x := by simp [State.circuit]

theorem State.circuit_setCircuit_ne {c d : Circuit} (x : CircuitState) (h : d ≠ c) :
    (s.setCircuit c x).circuit d = s.circuit d := by
  have h' : c.val ≠ d.val := fun e => h (Fin.ext e.symm)
  simp [State.circuit, Vector.getElem_set_ne, h']

@[simp] theorem State.circuit_updCircuit_self (c : Circuit) (f : CircuitState → CircuitState) :
    (s.updCircuit c f).circuit c = f (s.circuit c) := s.circuit_setCircuit_self c _

theorem State.circuit_updCircuit_ne {c d : Circuit} (f : CircuitState → CircuitState) (h : d ≠ c) :
    (s.updCircuit c f).circuit d = s.circuit d := s.circuit_setCircuit_ne _ h

@[simp] theorem State.message_setMessage_self (r : RecordIdx) (m : Message) :
    (s.setMessage r m).message r = m := by simp [State.message]

theorem State.message_setMessage_ne {r q : RecordIdx} (m : Message) (h : q ≠ r) :
    (s.setMessage r m).message q = s.message q := by
  have h' : r.val ≠ q.val := fun e => h (Fin.ext e.symm)
  simp [State.message, Vector.getElem_set_ne, h']

@[simp] theorem State.message_updMessage_self (r : RecordIdx) (f : Message → Message) :
    (s.updMessage r f).message r = f (s.message r) := s.message_setMessage_self r _

theorem State.message_updMessage_ne {r q : RecordIdx} (f : Message → Message) (h : q ≠ r) :
    (s.updMessage r f).message q = s.message q := s.message_setMessage_ne _ h

@[simp] theorem State.fill_setFill_self (r : RecordIdx) (f : Fill) : (s.setFill r f).fill r = f := by
  simp [State.fill]

theorem State.fill_setFill_ne {r q : RecordIdx} (f : Fill) (h : q ≠ r) :
    (s.setFill r f).fill q = s.fill q := by
  have h' : r.val ≠ q.val := fun e => h (Fin.ext e.symm)
  simp [State.fill, Vector.getElem_set_ne, h']

end Sys2Proof.Machine
end

