-- ==== Sys2Proof/Laws/Store.lean ====
section
/-! SUPPORT. The laws of the sorted maps and of the store they hold: what a write leaves at its key and at every
other, and that every write keeps the canonical form. -/

namespace Sys2Proof.Machine

variable {α : Type} [DecidableEq α] {d : α}

/-- A lower bound on every key of a map. -/
def Sparse.above (a : Nat) (m : Sparse α) : Prop := ∀ e ∈ m, a < e.1

omit [DecidableEq α] in
theorem Sparse.get_of_above {m : Sparse α} {a : Nat} (h : Sparse.above a m) : Sparse.get d m a = d := by
  induction m with
  | nil => rfl
  | cons e rest ih =>
    obtain ⟨k, w⟩ := e
    have hk : a < k := h (k, w) (by simp)
    have : k ≠ a := by omega
    simp [Sparse.get, this, ih fun e he => h e (by simp [he])]

/-- The canonical form, said of the head and of the rest. -/
theorem Sparse.wf_cons {k : Nat} {v : α} {rest : Sparse α} :
    Sparse.wf d ((k, v) :: rest) = true ↔
      v ≠ d ∧ Sparse.above k rest ∧ Sparse.wf d rest = true := by
  induction rest generalizing k v with
  | nil => simp [Sparse.wf, Sparse.above]
  | cons e rest ih =>
    obtain ⟨k', v'⟩ := e
    constructor
    · intro h
      simp only [Sparse.wf, Bool.and_eq_true, decide_eq_true_eq] at h
      obtain ⟨⟨hk, hv⟩, hr⟩ := h
      obtain ⟨-, ha, -⟩ := ih.mp hr
      refine ⟨hv, ?_, hr⟩
      intro e he
      rcases List.mem_cons.mp he with rfl | he
      · exact hk
      · exact lt_trans hk (ha e he)
    · rintro ⟨hv, ha, hr⟩
      have hk : k < k' := ha (k', v') (by simp)
      simp [Sparse.wf, hk, hv, hr]

theorem Sparse.above_put {m : Sparse α} {k a : Nat} {v : α} (h : Sparse.above k m) (ha : k < a) :
    Sparse.above k (Sparse.put d m a v) := by
  induction m with
  | nil =>
    unfold Sparse.put
    split
    · exact h
    · intro e he; simp at he; subst he; exact ha
  | cons e rest ih =>
    obtain ⟨k', w⟩ := e
    have hr : Sparse.above k rest := fun e he => h e (by simp [he])
    have hk : k < k' := h (k', w) (by simp)
    unfold Sparse.put
    split_ifs
    · exact h
    · intro e he
      rcases List.mem_cons.mp he with rfl | he
      · exact ha
      · exact h e he
    · exact hr
    · intro e he
      rcases List.mem_cons.mp he with rfl | he
      · exact ha
      · exact hr e he
    · intro e he
      rcases List.mem_cons.mp he with rfl | he
      · exact hk
      · exact ih hr e he

/-- A write keeps the canonical form. -/
theorem Sparse.wf_put {m : Sparse α} {a : Nat} {v : α} (h : Sparse.wf d m = true) :
    Sparse.wf d (Sparse.put d m a v) = true := by
  induction m with
  | nil =>
    unfold Sparse.put
    split
    · rfl
    · rename_i hv; simp [Sparse.wf, hv]
  | cons e rest ih =>
    obtain ⟨k, w⟩ := e
    obtain ⟨hw, hab, hr⟩ := Sparse.wf_cons.mp h
    unfold Sparse.put
    split_ifs with h1 h2 h3 h4
    · exact h
    · refine Sparse.wf_cons.mpr ⟨h2, ?_, h⟩
      intro e he
      rcases List.mem_cons.mp he with rfl | he
      · exact h1
      · exact lt_trans h1 (hab e he)
    · exact hr
    · exact Sparse.wf_cons.mpr ⟨h4, by subst h3; exact hab, hr⟩
    · exact Sparse.wf_cons.mpr ⟨hw, Sparse.above_put hab (by omega), ih hr⟩

/-- A write adds no key but its own. -/
theorem Sparse.mem_put_lt {m : Sparse α} {a bound : Nat} {v : α} {e : Nat × α}
    (he : e ∈ Sparse.put d m a v) (hm : ∀ e ∈ m, e.1 < bound) (ha : a < bound) : e.1 < bound := by
  induction m with
  | nil =>
    unfold Sparse.put at he
    split at he
    · simp at he
    · simp at he; subst he; exact ha
  | cons x rest ih =>
    obtain ⟨k, w⟩ := x
    have hr : ∀ e ∈ rest, e.1 < bound := fun e h => hm e (by simp [h])
    have hk : k < bound := hm (k, w) (by simp)
    unfold Sparse.put at he
    split_ifs at he
    · exact hm e he
    · rcases List.mem_cons.mp he with rfl | he
      · exact ha
      · exact hm e he
    · exact hr e he
    · rcases List.mem_cons.mp he with rfl | he
      · exact ha
      · exact hr e he
    · rcases List.mem_cons.mp he with rfl | he
      · exact hk
      · exact ih he hr

/-- What a written key reads as. -/
theorem Sparse.get_put_self {m : Sparse α} {a : Nat} {v : α} (h : Sparse.wf d m = true) :
    Sparse.get d (Sparse.put d m a v) a = v := by
  induction m with
  | nil =>
    unfold Sparse.put
    split
    · rename_i hv; simp [Sparse.get, hv]
    · simp [Sparse.get]
  | cons e rest ih =>
    obtain ⟨k, w⟩ := e
    obtain ⟨hw, hab, hr⟩ := Sparse.wf_cons.mp h
    unfold Sparse.put
    split_ifs with h1 h2 h3 h4
    · have hne : k ≠ a := by omega
      have : Sparse.above a rest := fun e he => lt_trans h1 (hab e he)
      simp [Sparse.get, hne, Sparse.get_of_above this, h2]
    · simp [Sparse.get]
    · subst h3; rw [Sparse.get_of_above hab, h4]
    · simp [Sparse.get]
    · have hne : k ≠ a := by omega
      simp [Sparse.get, hne, ih hr]

/-- What every other key reads as: this needs no canonical form. -/
theorem Sparse.get_put_ne {m : Sparse α} {a b : Nat} {v : α} (h : b ≠ a) :
    Sparse.get d (Sparse.put d m a v) b = Sparse.get d m b := by
  induction m with
  | nil =>
    unfold Sparse.put
    split
    · rfl
    · simp [Sparse.get, Ne.symm h]
  | cons e rest ih =>
    obtain ⟨k, w⟩ := e
    unfold Sparse.put
    split_ifs with h1 h2 h3 h4
    · rfl
    · simp [Sparse.get, Ne.symm h]
    · have : k ≠ b := by omega
      simp [Sparse.get, this]
    · have : a ≠ b := Ne.symm h
      have hk : k ≠ b := by omega
      simp [Sparse.get, this, hk]
    · by_cases hk : k = b
      · simp [Sparse.get, hk]
      · simp [Sparse.get, hk, ih]

/-- Changing the value at some keys and dropping the entries that come to the default keeps the canonical
form. -/
theorem Sparse.wf_map_filter {m : Sparse α} (f : Nat × α → α) (h : Sparse.wf d m = true) :
    Sparse.wf d ((m.map fun e => (e.1, f e)).filter fun e => decide (e.2 ≠ d)) = true := by
  have key : ∀ k, Sparse.above k m →
      Sparse.above k ((m.map fun e => (e.1, f e)).filter fun e => decide (e.2 ≠ d)) := by
    intro k hk e he
    obtain ⟨e', he', rfl⟩ := List.mem_map.mp (List.mem_filter.mp he).1
    exact hk e' he'
  induction m with
  | nil => rfl
  | cons e rest ih =>
    obtain ⟨k, w⟩ := e
    obtain ⟨-, hab, hr⟩ := Sparse.wf_cons.mp h
    have sub : ∀ k', Sparse.above k' rest →
        Sparse.above k' ((rest.map fun e => (e.1, f e)).filter fun e => decide (e.2 ≠ d)) := by
      intro k' hk e he
      obtain ⟨e', he', rfl⟩ := List.mem_map.mp (List.mem_filter.mp he).1
      exact hk e' he'
    by_cases hv : f (k, w) = d
    · simpa [hv] using ih hr sub
    · have hcons : Sparse.wf d ((k, f (k, w)) ::
          (rest.map fun e => (e.1, f e)).filter fun e => decide (e.2 ≠ d)) = true :=
        Sparse.wf_cons.mpr ⟨hv, sub k hab, ih hr sub⟩
      simpa [hv] using hcons

/-! ### The store -/

/-- A write at a 20-bit address keeps the memory's canonical form. -/
theorem Memory.wf_put {m : Sparse Word} (a : Address) (v : Word) (h : Memory.wf m = true) :
    Memory.wf (Sparse.put Config.unwrittenWord m a.toNat v) = true := by
  simp only [Memory.wf, Bool.and_eq_true, List.all_eq_true, decide_eq_true_eq] at h ⊢
  refine ⟨Sparse.wf_put h.1, ?_⟩
  intro e he
  have ha : a.toNat < 1048576 := a.isLt
  obtain ⟨-, hb⟩ := h
  exact Sparse.mem_put_lt he hb ha

theorem State.readStore_writeStore_self (s : State) (a : Address) (v : Word) (h : s.mapsLawful) :
    (s.writeStore a v).readStore a = v := by
  have hw : Sparse.wf Config.unwrittenWord s.store = true := by
    have := h.1
    simp only [Memory.wf, Bool.and_eq_true] at this
    exact this.1
  exact Sparse.get_put_self hw

theorem State.readStore_writeStore_ne (s : State) {a b : Address} (v : Word) (h : b ≠ a) :
    (s.writeStore a v).readStore b = s.readStore b := by
  apply Sparse.get_put_ne
  exact fun e => h (BitVec.eq_of_toNat_eq e)

/-- Every store write keeps the canonical forms. -/
theorem State.mapsLawful_writeStore (s : State) (a : Address) (v : Word) (h : s.mapsLawful) :
    (s.writeStore a v).mapsLawful := ⟨Memory.wf_put a v h.1, h.2⟩

theorem State.mapsLawful_writeRelay (s : State) (o : Nat) (v : Word) (h : s.mapsLawful) :
    (s.writeRelay o v).mapsLawful := s.mapsLawful_writeStore _ v h

/-- Every shadow write keeps the canonical forms. -/
theorem State.mapsLawful_setShadow (s : State) (o : Nat) (v : Word) (h : s.mapsLawful) :
    (s.setShadow o v).mapsLawful := ⟨h.1, Sparse.wf_put h.2.1, h.2.2⟩

/-- Every change of one owner keeps the canonical forms. -/
theorem State.mapsLawful_setOwner (s : State) (b : Nat) (o : Owner) (h : s.mapsLawful) :
    (s.setOwner b o).mapsLawful := ⟨h.1, h.2.1, Sparse.wf_put h.2.2⟩

/-- The change of a record's blocks to another owner keeps the canonical forms. -/
theorem State.mapsLawful_rehome (s : State) (r : RecordIdx) (o : Owner) (h : s.mapsLawful) :
    (s.rehome r o).mapsLawful := by
  refine ⟨h.1, h.2.1, ?_⟩
  have := Sparse.wf_map_filter (fun e : Nat × Owner => if e.2 = .message r then o else e.2) h.2.2
  have hm : (s.owners.map fun e => if e.2 = .message r then (e.1, o) else e) =
      s.owners.map fun e => (e.1, if e.2 = .message r then o else e.2) := by
    apply List.map_congr_left
    intro e _
    split <;> rfl
  simpa [State.rehome, hm] using this

/-- A run of consecutive writes keeps the canonical forms. -/
theorem State.mapsLawful_writeRelayWords (ws : List Word) (s : State) (o : Nat) (h : s.mapsLawful) :
    (s.writeRelayWords o ws).mapsLawful := by
  induction ws generalizing s o with
  | nil => exact h
  | cons w ws ih => exact ih _ _ (s.mapsLawful_writeRelay o w h)

theorem State.mapsLawful_makeWrites (ws : List (Nat × Word)) (s : State) (h : s.mapsLawful) :
    (makeWrites ws s).mapsLawful := by
  unfold makeWrites
  induction ws generalizing s with
  | nil => exact h
  | cons w ws ih => exact ih _ (s.mapsLawful_writeRelay w.1 w.2 h)

/-- Two offsets of the relay area have different addresses (R158). -/
theorem State.relayAddress_inj (s : State) {o p : Nat} (ho : o < Config.relayWords) (hp : p < Config.relayWords)
    (h : s.relayAddress o = s.relayAddress p) : o = p := by
  have hs := s.strap.isLt
  unfold Config.relayWords at ho hp
  simp only [State.relayAddress, Config.relayWords] at h
  have h' := congrArg BitVec.toNat h
  simp only [BitVec.toNat_ofNat] at h'
  omega

/-- A shadow word written is read back by every block (R160, R161). -/
theorem State.shadowAt_setShadow_self (s : State) (o : Nat) (v : Word) (h : s.mapsLawful) :
    (s.setShadow o v).shadowAt o = v := by
  have := Sparse.get_put_self (a := o) (v := some v) h.2.1
  simp [State.shadowAt, State.setShadow, this]

/-- The other shadow words stand. -/
theorem State.shadowAt_setShadow_ne (s : State) {o p : Nat} (v : Word) (h : p ≠ o) :
    (s.setShadow o v).shadowAt p = s.shadowAt p := by
  simp [State.shadowAt, State.setShadow, Sparse.get_put_ne h]

/-- A block's new owner is read back (R65). -/
theorem State.owner_setOwner_self (s : State) (b : Nat) (o : Owner) (h : s.mapsLawful) :
    (s.setOwner b o).owner b = o := Sparse.get_put_self h.2.2

/-- The other blocks keep their owners. -/
theorem State.owner_setOwner_ne (s : State) {b b' : Nat} (o : Owner) (h : b' ≠ b) :
    (s.setOwner b o).owner b' = s.owner b' := Sparse.get_put_ne h

end Sys2Proof.Machine
end

