-- ==== Sys2Proof/Laws/Frames.lean ====
section
/-! SUPPORT. How the frames of the statements compose: a state is its fields, every accessor that changes a circuit
or a record is one `setCircuit` or `setMessage`, and a step that changes one circuit and hands over reports follows
another of the same kind. -/

namespace Sys2Proof.Machine

/-- Two states are equal exactly when every field is. -/
theorem State.eq_iff (s t : State) : s = t ↔
    s.pending = t.pending ∧ s.divider = t.divider ∧ s.officeTicksDue = t.officeTicksDue ∧
    s.tickCount = t.tickCount ∧ s.minute = t.minute ∧
    s.circuits = t.circuits ∧ s.messages = t.messages ∧ s.fills = t.fills ∧ s.writer = t.writer ∧
    s.pool = t.pool ∧ s.owners = t.owners ∧ s.postOutcome = t.postOutcome ∧ s.walk = t.walk ∧
    s.strap = t.strap ∧ s.strapBefore = t.strapBefore ∧ s.waiting = t.waiting ∧
    s.readData = t.readData ∧
    s.pendingClear = t.pendingClear ∧ s.shadow = t.shadow ∧ s.arbiter = t.arbiter ∧
    s.fetchLast = t.fetchLast ∧ s.reports = t.reports ∧ s.messageDirty = t.messageDirty ∧
    s.circuitDirty = t.circuitDirty ∧ s.officeDirty = t.officeDirty ∧ s.store = t.store := by
  cases s; cases t; simp

section Accessors

variable (s : State) (c : Circuit) (r : RecordIdx)

@[simp] theorem State.updCircuit_eq (f : CircuitState → CircuitState) :
    s.updCircuit c f = s.setCircuit c (f (s.circuit c)) := rfl

@[simp] theorem State.updLine_eq (f : LineUnit → LineUnit) :
    s.updLine c f = s.setCircuit c { s.circuit c with line := f (s.circuit c).line } := rfl

@[simp] theorem State.updRecogniser_eq (f : Recogniser → Recogniser) :
    s.updRecogniser c f = s.setCircuit c { s.circuit c with recogniser := f (s.circuit c).recogniser } := rfl

@[simp] theorem State.updFifo_eq (f : List FifoItem → List FifoItem) :
    s.updFifo c f = s.setCircuit c { s.circuit c with textFifo := f (s.circuit c).textFifo } := rfl

@[simp] theorem State.updSend_eq (f : SendController → SendController) :
    s.updSend c f = s.setCircuit c { s.circuit c with send := f (s.circuit c).send } := rfl

@[simp] theorem State.updDialogue_eq (f : Dialogue → Dialogue) :
    s.updDialogue c f = s.setCircuit c { s.circuit c with dialogue := f (s.circuit c).dialogue } := rfl

@[simp] theorem State.updControl_eq (f : Controller → Controller) :
    s.updControl c f = s.setCircuit c { s.circuit c with control := f (s.circuit c).control } := rfl

@[simp] theorem State.updStation_eq (t : StationIdx) (f : Station → Station) :
    s.updStation c t f = s.setCircuit c
      { s.circuit c with stations := (s.circuit c).stations.set t (f (s.circuit c).stations[t]) } := rfl

@[simp] theorem State.updQueue_eq (p : Precedence) (f : Queue → Queue) :
    s.updQueue c p f = s.setCircuit c
      { s.circuit c with queues := (s.circuit c).queues.put p (f ((s.circuit c).queues.get p)) } := rfl

@[simp] theorem State.updMessage_eq (f : Message → Message) :
    s.updMessage r f = s.setMessage r (f (s.message r)) := rfl

@[simp] theorem State.updFlags_eq (f : MessageFlags → MessageFlags) :
    s.updFlags r f = s.setMessage r { s.message r with flags := f (s.message r).flags } := rfl

@[simp] theorem State.updSlot_eq (k : SlotIdx) (f : Option Delivery → Option Delivery) :
    s.updSlot r k f = s.setMessage r
      { s.message r with slots := (s.message r).slots.set k (f (s.message r).slots[k]) } := rfl

@[simp] theorem State.circuit_raise (p : Place) (g : Word) (k : ReportKind) :
    (s.raise p g k).circuit c = s.circuit c := by simp [State.circuit]

@[simp] theorem State.message_raise (p : Place) (g : Word) (k : ReportKind) :
    (s.raise p g k).message r = s.message r := by simp [State.message]

@[simp] theorem State.circuit_setMessage (m : Message) : (s.setMessage r m).circuit c = s.circuit c := rfl

@[simp] theorem State.message_setCircuit (x : CircuitState) : (s.setCircuit c x).message r = s.message r := rfl

@[simp] theorem State.circuit_writeStore (a : Address) (v : Word) : (s.writeStore a v).circuit c = s.circuit c := rfl

@[simp] theorem State.message_writeStore (a : Address) (v : Word) : (s.writeStore a v).message r = s.message r := rfl

@[simp] theorem State.circuit_setShadow (o : Nat) (v : Word) : (s.setShadow o v).circuit c = s.circuit c := rfl

@[simp] theorem State.setting_setCircuit (d : Circuit) (x : CircuitState) (w : Nat) :
    (s.setCircuit c x).setting d w = s.setting d w := rfl

@[simp] theorem State.setting_setMessage (m : Message) (d : Circuit) (w : Nat) :
    (s.setMessage r m).setting d w = s.setting d w := rfl

@[simp] theorem State.setting_raise (p : Place) (g : Word) (k : ReportKind) (d : Circuit) (w : Nat) :
    (s.raise p g k).setting d w = s.setting d w := by simp [State.setting, State.shadowAt]

@[simp] theorem State.inService_raise (p : Place) (g : Word) (k : ReportKind) :
    (s.raise p g k).inService c = s.inService c := by simp [State.inService]

@[simp] theorem State.isParty_raise (p : Place) (g : Word) (k : ReportKind) :
    (s.raise p g k).isParty c = s.isParty c := by simp [State.isParty]

end Accessors

/-! ### One circuit and reports -/

/-- What a report does to the report writer and the office mark depends only on the two and on the minute. -/
theorem State.raise_reports_congr {s t : State} (p : Place) (g : Word) (k : ReportKind)
    (hr : s.reports = t.reports) (ho : s.officeDirty = t.officeDirty) (hm : s.minute = t.minute) :
    (s.raise p g k).reports = (t.raise p g k).reports ∧
    (s.raise p g k).officeDirty = (t.raise p g k).officeDirty ∧
    (s.raise p g k).minute = (t.raise p g k).minute := by
  unfold State.raise
  rw [hr, ho, hm]
  split <;> simp

theorem State.raiseAll_congr (l : List (Place × Word × ReportKind)) {s t : State}
    (hr : s.reports = t.reports) (ho : s.officeDirty = t.officeDirty) (hm : s.minute = t.minute) :
    (s.raiseAll l).reports = (t.raiseAll l).reports ∧
    (s.raiseAll l).officeDirty = (t.raiseAll l).officeDirty := by
  induction l generalizing s t with
  | nil => exact ⟨hr, ho⟩
  | cons e rest ih =>
    obtain ⟨h1, h2, h3⟩ := State.raise_reports_congr e.1 e.2.1 e.2.2 hr ho hm
    exact ih h1 h2 h3

@[simp] theorem State.raiseAll_nil (s : State) : s.raiseAll [] = s := rfl

@[simp] theorem State.raiseAll_cons (s : State) (e : Place × Word × ReportKind)
    (l : List (Place × Word × ReportKind)) :
    s.raiseAll (e :: l) = (s.raise e.1 e.2.1 e.2.2).raiseAll l := rfl

theorem State.raiseAll_append (s : State) (l l' : List (Place × Word × ReportKind)) :
    s.raiseAll (l ++ l') = (s.raiseAll l).raiseAll l' := by
  simp [State.raiseAll, List.foldl_append]

@[simp] theorem State.raiseAll_minute (s : State) (l : List (Place × Word × ReportKind)) :
    (s.raiseAll l).minute = s.minute := by
  induction l generalizing s with
  | nil => rfl
  | cons e rest ih => simp [ih]

/-- A state changes nothing of itself. -/
theorem State.onlyCircuit_refl (s : State) (c : Circuit) : s.onlyCircuit s c [] :=
  ⟨rfl, fun _ _ => ⟨rfl, rfl⟩⟩

/-- A change of circuit c is one. -/
theorem State.onlyCircuit_setCircuit (s : State) (c : Circuit) (x : CircuitState) :
    s.onlyCircuit (s.setCircuit c x) c [] := by
  refine ⟨rfl, fun d hd => ⟨s.circuit_setCircuit_ne x hd, ?_⟩⟩
  have h' : c.val ≠ d.val := fun e => hd (Fin.ext e.symm)
  simp [State.setCircuit, Vector.getElem_set_ne, h']

/-- A report handed over changes no circuit. -/
theorem State.onlyCircuit_raise (s : State) (c : Circuit) (p : Place) (g : Word) (k : ReportKind) :
    s.onlyCircuit (s.raise p g k) c [(p, g, k)] := by
  refine ⟨?_, fun d _ => ⟨by simp, by simp⟩⟩
  simp [State.eq_iff]

/-- Two such steps, one after the other. -/
theorem State.onlyCircuit_trans {s t u : State} {c : Circuit} {l l' : List (Place × Word × ReportKind)}
    (h : s.onlyCircuit t c l) (h' : t.onlyCircuit u c l') : s.onlyCircuit u c (l ++ l') := by
  obtain ⟨e, ho⟩ := h
  obtain ⟨e', ho'⟩ := h'
  refine ⟨?_, fun d hd => ⟨(ho' d hd).1.trans (ho d hd).1, (ho' d hd).2.trans (ho d hd).2⟩⟩
  have key := State.raiseAll_congr l' (s := t) (t := s.raiseAll l)
    (by rw [e]) (by rw [e]) (by rw [e]; simp)
  rw [State.raiseAll_append, ← key.1, ← key.2]
  rw [State.eq_iff] at e e' ⊢
  simp_all

end Sys2Proof.Machine
end

