-- ==== Sys2Proof/Laws/Runs.lean ====
section
/-! SUPPORT. What the operations of the store arbiter do, said once (section 9.6): the writes of a run change the store
only, a grant changes what its run's requester gives up, and an event at the end of a run is one of three cases. -/

namespace Sys2Proof.Machine

/-- Store writes change the store only. -/
theorem makeWrites_eq (ws : List (Nat × Word)) (s : State) :
    makeWrites ws s = { s with store := (makeWrites ws s).store } := by
  unfold makeWrites
  induction ws generalizing s with
  | nil => rfl
  | cons w ws ih => exact ih (s.writeRelay w.1 w.2)

/-- The write of the cycle on the M-port changes the store alone. -/
theorem portWrite_eq (run : Run) (made : Nat) (s : State) :
    portWrite run made s = { s with store := (portWrite run made s).store } := makeWrites_eq _ s

@[simp] theorem makeWrites_nil (s : State) : makeWrites [] s = s := rfl

@[simp] theorem makeWrites_cons (w : Nat × Word) (ws : List (Nat × Word)) (s : State) :
    makeWrites (w :: ws) s = makeWrites ws (s.writeRelay w.1 w.2) := rfl

/-- The writes of consecutive words are the writes of those words from their offset. -/
theorem makeWrites_wordsFrom (ws : List Word) (o : Nat) (s : State) :
    makeWrites (wordsFrom o ws) s = s.writeRelayWords o ws := by
  induction ws generalizing o s with
  | nil => rfl
  | cons w ws ih => exact ih (o + 1) (s.writeRelay o w)

/-- Once a run has been granted it holds the M-port. -/
@[simp] theorem grantRun_arbiter (run : Run) (s : State) : (grantRun run s).arbiter = .granted run 0 := by
  cases run with
  | mirror m _ => cases m <;> rfl
  | _ => rfl

/-- All that the grant of a run changes. -/
theorem grantRun_eq (run : Run) (s : State) :
    grantRun run s = { s with
      arbiter := .granted run 0, fetchLast := (grantRun run s).fetchLast, reports := (grantRun run s).reports
      messageDirty := (grantRun run s).messageDirty, circuitDirty := (grantRun run s).circuitDirty
      officeDirty := (grantRun run s).officeDirty } := by
  cases run with
  | mirror m _ => cases m <;> rfl
  | _ => rfl

/-- The end of a run changes the store and frees the arbiter. -/
theorem endRun_eq (run : Run) (made : Nat) (s : State) :
    endRun run made s = { s with store := (endRun run made s).store, arbiter := .free } := by
  unfold endRun
  rw [makeWrites_eq]

@[simp] theorem endRun_store (run : Run) (made : Nat) (s : State) :
    (endRun run made s).store = (makeWrites ((s.runWrites run).drop made) s).store := rfl

/-- A grant is made only where the arbiter is FREE or a passage cycle ends (R167, R168). -/
theorem State.open_of_grantee {s : State} {cycle : Bool} {q : Requester} (h : s.grantee cycle = some q) :
    s.arbiter.open = true := by
  cases ho : s.arbiter.open with
  | true => rfl
  | false => simp [State.grantee, ho] at h

/-- An open arbiter holds no run of the part's own. -/
theorem Arbiter.open_iff (a : Arbiter) : a.open = true ↔ a = .free ∨ ∃ made, a = .granted .passage made := by
  cases a with
  | free => simp [Arbiter.open]
  | granted run made => cases run <;> simp [Arbiter.open]

theorem Arbiter.reporting_of_open {a : Arbiter} (h : a.open = true) : a.reporting = false := by
  rcases a.open_iff.mp h with rfl | ⟨_, rfl⟩ <;> rfl

/-- The next run is offered by the requester the grant goes to. -/
theorem State.nextRun_eq_some {s : State} {run : Run} :
    s.nextRun = some run ↔ ∃ q, s.grantee s.waiting.isSome = some q ∧ s.runOf q = some run :=
  Option.bind_eq_some_iff

theorem State.open_of_nextRun {s : State} {run : Run} (h : s.nextRun = some run) : s.arbiter.open = true := by
  obtain ⟨q, hq, -⟩ := State.nextRun_eq_some.mp h
  exact State.open_of_grantee hq

/-- With a run in progress nothing is granted. -/
theorem State.nextRun_eq_none {s : State} (h : s.arbiter.open = false) : s.nextRun = none := by
  cases hn : s.nextRun with
  | none => rfl
  | some run => rw [State.open_of_nextRun hn] at h; cases h

/-- An event at the end of a run, with that run in progress (R167): its remaining writes are made, the arbiter is
FREE, and the event has its effect. -/
theorem onRun_inProgress {effect : Run → Option (State → State)} {f : State → State} {s : State} {run : Run}
    {made : Nat} (ha : s.arbiter = .granted run made) (ho : s.arbiter.open = false)
    (hf : effect run = some f) : onRun effect s = f (endRun run made s) := by
  have e : s.withGrant = s := by simp [State.withGrant, State.nextRun_eq_none ho]
  simp [onRun, e, ha, hf]

/-- With the run granted by the same event, it is made whole. -/
theorem onRun_granted {effect : Run → Option (State → State)} {f : State → State} {s : State} {run : Run}
    (hn : s.nextRun = some run) (hf : effect run = some f) :
    onRun effect s = f (endRun run 0 (grantRun run s)) := by
  have e : s.withGrant = grantRun run s := by simp [State.withGrant, hn]
  simp [onRun, e, hf]

/-- Where the run is none of the event's kind, nothing happens. -/
theorem onRun_notDue {effect : Run → Option (State → State)} {s : State}
    (hn : ∀ run, s.nextRun = some run → effect run = none)
    (ha : ∀ run made, s.arbiter = .granted run made → effect run = none) : onRun effect s = s := by
  unfold onRun
  cases h : s.nextRun with
  | none =>
    have e : s.withGrant = s := by simp [State.withGrant, h]
    rw [e]
    split
    · rfl
    · rename_i ha'
      simp [ha _ _ ha']
  | some run =>
    have e : s.withGrant = grantRun run s := by simp [State.withGrant, h]
    simp [e, hn _ h]

/-- An event at the end of a run is one of the three. -/
theorem onRun_cases (effect : Run → Option (State → State)) (s : State) :
    onRun effect s = s ∨
    (∃ run made f, s.arbiter = .granted run made ∧ effect run = some f ∧ onRun effect s = f (endRun run made s)) ∨
    ∃ run f, s.nextRun = some run ∧ effect run = some f ∧
      onRun effect s = f (endRun run 0 (grantRun run s)) := by
  unfold onRun
  cases h : s.nextRun with
  | none =>
    have e : s.withGrant = s := by simp [State.withGrant, h]
    rw [e]
    cases ha : s.arbiter with
    | free => exact .inl rfl
    | granted run made =>
      cases hf : effect run with
      | none => exact .inl (by simp [hf])
      | some f => exact .inr (.inl ⟨run, made, f, rfl, hf, by simp [hf]⟩)
  | some run =>
    have e : s.withGrant = grantRun run s := by simp [State.withGrant, h]
    cases hf : effect run with
    | none => exact .inl (by simp [e, hf])
    | some f => exact .inr (.inr ⟨run, f, rfl, hf, by simp [e, hf]⟩)

end Sys2Proof.Machine
end

