-- ==== Sys2Proof/Laws/StorePath.lean ====
section
/-! SUPPORT. What a processor write does once it is granted, said once for every class of offset (R157 to R166), and
what the grant depends on. -/

namespace Sys2Proof.Machine

/-- The relay area's addresses do not wrap: the base and the offset stand in the 20 bits (R158). -/
theorem State.relayAddress_toNat (s : State) {o : Nat} (ho : o < Config.relayWords) :
    (s.relayAddress o).toNat = s.strap.val * Config.relayWords + o := by
  have := s.strap.isLt
  unfold Config.relayWords at ho ⊢
  simp [State.relayAddress, Config.relayWords]
  omega

@[simp] theorem State.inRelayArea_relayAddress (s : State) {o : Nat} (ho : o < Config.relayWords) :
    s.inRelayArea (s.relayAddress o) = true := by
  unfold State.inRelayArea
  rw [s.relayAddress_toNat ho]
  unfold Config.relayWords at ho ⊢
  simp only [decide_eq_true_eq]
  omega

@[simp] theorem relayOffset_relayAddress (s : State) {o : Nat} (ho : o < Config.relayWords) :
    relayOffset (s.relayAddress o) = o := by
  unfold relayOffset
  rw [s.relayAddress_toNat ho]
  unfold Config.relayWords at ho ⊢
  omega

/-- With none waiting, the waiting cycle's grant does nothing. -/
theorem grantWaiting_of_none {s : State} (h : s.waiting = none) : grantWaiting s = s := by
  simp [grantWaiting, h]

/-- A processor write granted at once is judged at once. -/
theorem presentWrite_granted {s : State} (h : s.granted) (a : Address) (v : Word) :
    presentWrite a v s = judgeWrite a v s := by
  simp [presentWrite, presentCycle, grantCycle, grantWaiting_of_none h.1, h.1, h.2]

/-- A processor read granted at once hands over what the store holds and changes nothing else but the holder of the
M-port (R157, R171). -/
theorem presentRead_granted {s : State} (h : s.granted) (a : Address) :
    presentRead a s = { s with readData := some (s.readStore a), arbiter := .granted .passage 0 } := by
  simp [presentRead, presentCycle, grantCycle, State.processorRead, grantWaiting_of_none h.1, h.1, h.2]

/-- A processor cycle whose grant does not come at once waits and changes nothing else (R157). -/
theorem presentCycle_waits {s : State} (h : s.waiting = none) (hg : s.grantee true ≠ some .passage)
    (cycle : PortCycle) : presentCycle cycle s = { s with waiting := some cycle } := by
  simp [presentCycle, grantWaiting_of_none h, h, hg]

/-- A granted write at a relay area offset, by the class of its offset (R159). -/
theorem presentAt_granted {s : State} (h : s.granted) {o : Nat} (ho : o < Config.relayWords) (v : Word) :
    presentAt o v s = (match writeClass o with
      | .plain => passWrite (s.relayAddress o) v s
      | .partWritten => trapWrite o s
      | .block b => if s.owner b = .processor then passWrite (s.relayAddress o) v s else trapWrite o s
      | .shadowed => shadowEvent o ((passWrite (s.relayAddress o) v s).setShadow o v)
      | .order word => takeOrder word v (passWrite (s.relayAddress o) v s)) := by
  simp only [presentAt, presentWrite_granted h, judgeWrite, s.inRelayArea_relayAddress ho, if_true,
    relayOffset_relayAddress s ho] <;> rfl

/-- The class of a command word (R159). -/
theorem writeClass_offCommand (c : Circuit) : writeClass (offCommand c) = .order (.command c) := by
  have hc := c.isLt
  have h1 : (offCommand c - 0x400) / 32 = c.val := by simp only [offCommand, offCircuit]; omega
  have h2 : (offCommand c - 0x400) % 32 = 16 := by simp only [offCommand, offCircuit]; omega
  have h3 : recordCircuit (offCommand c) = c := by
    apply Fin.ext
    simp only [recordCircuit, h1, Fin.ofNat]
    omega
  have h4 : ¬ offCommand c < 0x400 := by simp only [offCommand, offCircuit]; omega
  have h5 : offCommand c < 0x800 := by simp only [offCommand, offCircuit]; omega
  simp [writeClass, circuitClass, recordWord, h2, h3, h4, h5]

theorem offCommand_lt (c : Circuit) : offCommand c < Config.relayWords := by
  have hc := c.isLt
  simp only [offCommand, offCircuit, Config.relayWords]
  omega

/-- The command and its argument are the two bytes of the command word (section 11.3). -/
theorem commandWord_low (code argument : BitVec 8) :
    (argument ++ code : Word).extractLsb' 0 8 = code := by
  ext i hi
  have key := BitVec.getLsbD_append (x := argument) (y := code) (i := i)
  simp only [hi] at key
  simpa [hi] using key

theorem commandWord_high (code argument : BitVec 8) :
    (argument ++ code : Word).extractLsb' 8 8 = argument := by
  ext i hi
  have key := BitVec.getLsbD_append (x := argument) (y := code) (i := 8 + i)
  have h8 : ¬ 8 + i < 8 := by omega
  simp only [h8, Nat.add_sub_cancel_left] at key
  simpa [hi] using key

/-- A granted write of a command is stored, marked for clearing, and judged (R141, R163, R164). -/
theorem presentCommand_granted {s : State} (h : s.granted) (c : Circuit) (code argument : BitVec 8) :
    presentCommand c code argument s = circuitOrder c code argument
      { passWrite (s.relayAddress (offCommand c)) (argument ++ code) s with
        pendingClear := s.pendingClear.set c true } := by
  rw [presentCommand, presentAt_granted h (offCommand_lt c), writeClass_offCommand]
  simp only [takeOrder, commandWritten, commandWord_low, commandWord_high]
  rfl

/-- A command word's write, before its command is judged, as the frame of every circuit command says it. -/
theorem State.tookCommand_write {s : State} (h : s.mapsLawful) (c : Circuit) (code argument : BitVec 8) :
    s.tookCommand { passWrite (s.relayAddress (offCommand c)) (argument ++ code) s with
      pendingClear := s.pendingClear.set c true } c code argument [] := by
  refine ⟨rfl, fun d _ => ⟨rfl, rfl⟩, ?_, fun b hb => ?_⟩
  · exact s.readStore_writeStore_self (s.relayAddress (offCommand c)) _ h
  · exact s.readStore_writeStore_ne _ hb

/-- The command's own effect on its circuit, after the write. -/
theorem State.tookCommand_trans {s t u : State} {c : Circuit} {code argument : BitVec 8}
    {l l' : List (Place × Word × ReportKind)} (h : s.tookCommand t c code argument l)
    (h' : t.onlyCircuit u c l') : s.tookCommand u c code argument (l ++ l') := by
  obtain ⟨e, ho, hw⟩ := h
  obtain ⟨e', ho'⟩ := h'
  have hs : u.store = t.store := by rw [e']
  refine ⟨?_, fun d hd => ⟨(ho' d hd).1.trans (ho d hd).1, (ho' d hd).2.trans (ho d hd).2⟩, ?_⟩
  · have key := State.raiseAll_congr l' (s := t) (t := s.raiseAll l)
      (by rw [e]) (by rw [e]) (by rw [e]; simp)
    rw [State.raiseAll_append, ← key.1, ← key.2]
    rw [State.eq_iff] at e e' ⊢
    simp_all
  · have hr : ∀ a, u.readStore a = t.readStore a := fun a => by simp [State.readStore, hs]
    exact ⟨(hr _).trans hw.1, fun b hb => (hr b).trans (hw.2 b hb)⟩

/-- An order other than a command: the word is written, and the order taken (R163). -/
theorem presentAt_order {s : State} (h : s.granted) {o : Nat} (ho : o < Config.relayWords) {word : OrderWord}
    (hw : writeClass o = .order word) (v : Word) :
    presentAt o v s = takeOrder word v (passWrite (s.relayAddress o) v s) := by
  rw [presentAt_granted h ho, hw]

/-- The one word that a passing write changes (R157). -/
theorem State.wroteWord_passWrite {s : State} (h : s.mapsLawful) (a : Address) (v : Word) :
    s.wroteWord (passWrite a v s) a v :=
  ⟨s.readStore_writeStore_self _ v h, fun _ hb => s.readStore_writeStore_ne v hb⟩

/-- The same of one of the part's own. -/
theorem State.wroteWord_writeRelay {s : State} (h : s.mapsLawful) (o : Nat) (v : Word) :
    s.wroteWord (s.writeRelay o v) (s.relayAddress o) v :=
  ⟨s.readStore_writeStore_self _ v h, fun _ hb => s.readStore_writeStore_ne v hb⟩

/-- A write seen through a state with the same store. -/
theorem State.wroteWord_congr {s t u : State} {a : Address} {v : Word} (h : s.wroteWord t a v)
    (e : u.store = t.store) : s.wroteWord u a v := by
  have hr : ∀ b, u.readStore b = t.readStore b := fun b => by simp [State.readStore, e]
  exact ⟨(hr a).trans h.1, fun b hb => (hr b).trans (h.2 b hb)⟩

end Sys2Proof.Machine
end

