-- ==== Sys2Proof/Laws/CircuitControl.lean ====
section
/-! SUPPORT. What the shared operations of the circuit controller do: the comparison of speeds, a change of the circuit
state, and a command taken or refused (R11, R12, R140, R141). -/

namespace Sys2Proof.Machine

/-- A comparison that finds a valid word 1, or the SETTING_HELD mark already set, raises nothing (R11, R12). -/
theorem compareSpeed_quiet {s : State} {c : Circuit} (rx tx : Bool)
    (h : speedSettingInvalid (s.setting c 1) = false ∨ (s.circuit c).line.settingHeld = true) :
    compareSpeed rx tx c s =
      if (rx || tx) && s.inService c then
        s.setCircuit c { s.circuit c with line := { (s.circuit c).line with
          rxSpeed := if rx then (speedOf (s.setting c 1)).getD (s.circuit c).line.rxSpeed
            else (s.circuit c).line.rxSpeed
          txSpeed := if tx then (speedOf (s.setting c 1)).getD (s.circuit c).line.txSpeed
            else (s.circuit c).line.txSpeed
          txStop := if tx then (stopOf (s.setting c 1)).getD (s.circuit c).line.txStop
            else (s.circuit c).line.txStop } }
      else s := by
  unfold compareSpeed
  rcases h with h | h <;> simp [h]

/-- A comparison that finds an invalid code, the mark clear, raises SETTING_HELD and sets the mark (R12). -/
theorem compareSpeed_held {s : State} {c : Circuit} (rx tx : Bool)
    (h : speedSettingInvalid (s.setting c 1) = true) (hm : (s.circuit c).line.settingHeld = false)
    (hs : s.inService c = true) (hd : (rx || tx) = true) :
    compareSpeed rx tx c s = ((s.raise (.circuit c none) 0 .settingHeld).updLine c fun l =>
        { l with settingHeld := true }).updLine c fun l => { l with
          rxSpeed := if rx then (speedOf (s.setting c 1)).getD l.rxSpeed else l.rxSpeed
          txSpeed := if tx then (speedOf (s.setting c 1)).getD l.txSpeed else l.txSpeed
          txStop := if tx then (stopOf (s.setting c 1)).getD l.txStop else l.txStop } := by
  unfold compareSpeed
  simp [h, hm, hs, hd]

/-- Outside READY and HELD no comparison is made (R11). -/
theorem compareSpeed_outOfService {s : State} {c : Circuit} (rx tx : Bool) (h : s.inService c = false) :
    compareSpeed rx tx c s = s := by
  simp [compareSpeed, h]

/-- A comparison at rest, word 1 being valid, changes the line unit only (R11). -/
theorem compareAtRest_valid {s : State} {c : Circuit} (h : speedSettingInvalid (s.setting c 1) = false)
    (hs : s.inService c = true) :
    s.onlyCircuit (compareAtRest c s) c [] ∧
    (compareAtRest c s).circuit c =
      { s.circuit c with line := (s.circuit c).line.compared (s.setting c 1) } := by
  unfold compareAtRest
  simp only [compareSpeed_quiet _ _ (Or.inl h), hs, Bool.and_true]
  split
  · exact ⟨s.onlyCircuit_setCircuit c _, by simp [LineUnit.compared]⟩
  · rename_i hd
    simp only [Bool.or_eq_true, decide_eq_true_eq, not_or] at hd
    exact ⟨s.onlyCircuit_refl c, by simp [LineUnit.compared, hd.1, hd.2]⟩

/-- A change of the circuit state raises CIRCUIT_STATE, and an entry to READY or HELD compares speeds (R11,
R140); word 1 is valid, or the state is another. -/
theorem setMode_spec (c : Circuit) (mode : CircuitMode) (cause : StateCause) (s : State)
    (h : speedSettingInvalid (s.setting c 1) = false ∨ (mode ≠ .ready ∧ mode ≠ .held)) :
    s.onlyCircuit (setMode c mode cause s) c [(.circuit c none, 0, .circuitState mode cause)] ∧
    (setMode c mode cause s).circuit c =
      { s.circuit c with
        control := { (s.circuit c).control with state := mode }
        line := if mode = .ready ∨ mode = .held then (s.circuit c).line.compared (s.setting c 1)
          else (s.circuit c).line } := by
  have step : s.onlyCircuit ((s.updControl c fun k => { k with state := mode }).raise (.circuit c none) 0
      (.circuitState mode cause)) c [(.circuit c none, 0, .circuitState mode cause)] :=
    State.onlyCircuit_trans (s.onlyCircuit_setCircuit c _) (State.onlyCircuit_raise _ c _ _ _)
  have read : ((s.updControl c fun k => { k with state := mode }).raise (.circuit c none) 0
      (.circuitState mode cause)).circuit c =
      { s.circuit c with control := { (s.circuit c).control with state := mode } } := by simp
  by_cases hin : mode = .ready ∨ mode = .held
  · have hv : speedSettingInvalid (s.setting c 1) = false := by
      rcases h with h | h
      · exact h
      · rcases hin with e | e
        · exact absurd e h.1
        · exact absurd e h.2
    have hv' : speedSettingInvalid (((s.updControl c fun k => { k with state := mode }).raise (.circuit c none) 0
        (.circuitState mode cause)).setting c 1) = false := by simpa using hv
    have hs : ((s.updControl c fun k => { k with state := mode }).raise (.circuit c none) 0
        (.circuitState mode cause)).inService c = true := by
      simp only [State.inService, read]
      rcases hin with e | e <;> simp [e]
    obtain ⟨h1, h2⟩ := compareAtRest_valid hv' hs
    refine ⟨State.onlyCircuit_trans step h1, ?_⟩
    simp only [setMode, h2, read, if_pos hin]
    simp
  · have hs : ((s.updControl c fun k => { k with state := mode }).raise (.circuit c none) 0
        (.circuitState mode cause)).inService c = false := by
      simp only [State.inService, read]
      simpa [not_or] using hin
    have e : setMode c mode cause s = (s.updControl c fun k => { k with state := mode }).raise (.circuit c none) 0
        (.circuitState mode cause) := compareSpeed_outOfService _ _ hs
    rw [e, if_neg hin]
    exact ⟨step, read⟩

/-- A command whose checks all pass acts (R141). -/
theorem circuitOrder_accepted {s : State} {c : Circuit} {code argument : BitVec 8} {cmd : CircuitCommand}
    (h0 : code ≠ 0) (h1 : circuitCommandOf code.toNat = some cmd)
    (h2 : s.commandRefusal c cmd argument = none) :
    circuitOrder c code argument s = actOn c cmd argument s := by
  have h0' : ¬ code = 0 := h0
  simp only [circuitOrder, if_neg h0', h1, h2]

/-- A command that fails a check raises COMMAND_REFUSED and does nothing else (R141). -/
theorem circuitOrder_refused {s : State} {c : Circuit} {code argument : BitVec 8} {cmd : CircuitCommand}
    {reason : CommandRefusal} (h0 : code ≠ 0) (h1 : circuitCommandOf code.toNat = some cmd)
    (h2 : s.commandRefusal c cmd argument = some reason) :
    circuitOrder c code argument s = refuseCommand c reason code s := by
  have h0' : ¬ code = 0 := h0
  simp only [circuitOrder, if_neg h0', h1, h2]

/-- The line check's beginning, as a change of one circuit (R17, R144). -/
theorem beginCheck_spec (c : Circuit) (s : State) :
    s.onlyCircuit (beginCheck c s) c [] ∧
    (beginCheck c s).circuit c =
      { s.circuit c with
        line := (s.circuit c).line.rearm
        control := { (s.circuit c).control with markRun := 0, checkCount := 0, noLineReported := false } } := by
  refine ⟨?_, by simp [beginCheck]⟩
  exact State.onlyCircuit_trans (l := []) (s.onlyCircuit_setCircuit c _) (State.onlyCircuit_setCircuit _ c _)

end Sys2Proof.Machine
end

