-- ==== Sys2Proof/Laws/Made.lean ====
section
/-! SUPPORT. Every event but a reset, a report run and a grant to the mirror writer is made of changes through the accessors:
`Made calm s t` says that t comes from s by such changes, one lemma for each operation says that it is so made, and
what a change through the accessors keeps is said once. -/

namespace Sys2Proof.Machine

/-- Circuit c takes several values in turn. -/
def State.setCircuits (s : State) (c : Circuit) (xs : List CircuitState) : State :=
  xs.foldl (fun s x => s.setCircuit c x) s

@[simp] theorem State.circuit_setCircuits (s : State) (c : Circuit) (xs : List CircuitState) :
    (s.setCircuits c xs).circuit c = xs.getLastD (s.circuit c) := by
  induction xs generalizing s with
  | nil => rfl
  | cons x xs ih =>
    have e : s.setCircuits c (x :: xs) = (s.setCircuit c x).setCircuits c xs := rfl
    rw [e, ih, State.circuit_setCircuit_self, List.getLastD_cons]

theorem State.circuit_setCircuits_ne (s : State) {c d : Circuit} (xs : List CircuitState) (h : d ≠ c) :
    (s.setCircuits c xs).circuit d = s.circuit d := by
  induction xs generalizing s with
  | nil => rfl
  | cons x xs ih => exact (ih _).trans (s.circuit_setCircuit_ne x h)

theorem State.setCircuits_concat (s : State) (c : Circuit) (xs : List CircuitState) (x : CircuitState) :
    s.setCircuits c (xs ++ [x]) = (s.setCircuits c xs).setCircuit c x := by
  simp [State.setCircuits]

theorem State.setCircuits_eq (s : State) (c : Circuit) (xs : List CircuitState) :
    s.setCircuits c xs = { s with
      circuits := (s.setCircuits c xs).circuits, circuitDirty := (s.setCircuits c xs).circuitDirty } := by
  induction xs generalizing s with
  | nil => rfl
  | cons x xs ih => exact ih (s.setCircuit c x)

/-! ### The office tick, the clock and the report writer -/

theorem State.circuit_timersTick (s : State) (receive loop : Circuit → Bool) (n : Nat) (c : Circuit) :
    (timersTick receive loop n s).circuit c = (s.circuit c).officeTick (receive c) (loop c) := by
  simp [State.circuit, timersTick]

theorem State.circuit_clockCycle (s : State) (c : Circuit) :
    (clockCycle s).circuit c = { s.circuit c with line := (s.circuit c).line.clock } := by
  simp [State.circuit, clockCycle]

/-- An office tick changes neither the receiver nor the framing error count. -/
theorem LineUnit.officeTick_keeps (l : LineUnit) (n : Nat) (mark current : Bool) :
    (l.officeTick n mark current).receiver = l.receiver ∧
    (l.officeTick n mark current).framingErrors = l.framingErrors := by
  simp only [LineUnit.officeTick, LineUnit.watchLoop, LineUnit.watchOpen]
  (repeat' split) <;> exact ⟨rfl, rfl⟩

/-- The line check's tick changes its two counts only. -/
theorem Controller.checkTick_keeps (k : Controller) (mark current : Bool) :
    k.checkTick mark current = { k with
      checkCount := (k.checkTick mark current).checkCount, markRun := (k.checkTick mark current).markRun } := by
  unfold Controller.checkTick
  split <;> rfl

/-- An office tick changes no shown field of a circuit. -/
theorem CircuitState.officeTick_shown (x : CircuitState) (mark current : Bool) :
    (x.officeTick mark current).shown = x.shown := by
  unfold CircuitState.shown CircuitState.officeTick
  rw [Controller.checkTick_keeps, (LineUnit.officeTick_keeps _ _ _ _).2]
  rfl

theorem CircuitState.officeTick_lawful (x : CircuitState) (mark current : Bool) (h : x.lawful) :
    (x.officeTick mark current).lawful := by
  unfold CircuitState.lawful CircuitState.officeTick
  rw [Controller.checkTick_keeps, (LineUnit.officeTick_keeps _ _ _ _).1]
  exact h

theorem State.reportsLawful_raise (s : State) (p : Place) (g : Word) (k : ReportKind) (h : s.reportsLawful) :
    (s.raise p g k).reportsLawful := by
  obtain ⟨⟨h1, h2, h3, h4, h5⟩, hf, hg⟩ := h
  unfold State.raise
  split
  · rename_i hr
    refine ⟨⟨h1, h2, ?_, h4, h5⟩, hf, hg⟩
    simp only [Config.pendingReports] at hr
    simp only [List.length_append, List.length_singleton]
    omega
  · refine ⟨⟨h1, h2, h3, ?_, h5⟩, hf, hg⟩
    dsimp only
    omega

theorem State.reportsLawful_consume {s : State} (v : Word) (h : s.reportsLawful) :
    (consumeReports v s).reportsLawful := by
  obtain ⟨⟨h1, h2, h3, h4, h5⟩, hf, hg⟩ := h
  unfold consumeReports
  split
  · rename_i hv
    obtain ⟨hv1, hv2⟩ : v.toNat ≤ 1023 ∧
        (v.toNat + 1024 - s.reports.consume) % 1024 ≤ (s.reports.produce + 1024 - s.reports.consume) % 1024 := by
      rw [ReportWriter.withinSpan, Bool.and_eq_true] at hv
      exact ⟨of_decide_eq_true hv.1, of_decide_eq_true hv.2⟩
    refine ⟨⟨h1, by dsimp only; omega, h3, h4, ?_⟩, hf, fun ha => ?_⟩
    · dsimp only
      rw [h5]
      by_cases e : s.reports.consume = s.reports.produce
      · have : v.toNat = s.reports.produce := by omega
        simp [this]
      · simp [e]
    · have := hg ha
      simp only [ReportWriter.unconsumed, Config.ringEntries] at this ⊢
      omega
  · exact ⟨⟨h1, h2, h3, h4, h5⟩, hf, hg⟩

/-! ### The dirty marks (R179) -/

/-- Whatever shown field differs from the first state to the second is marked in the second, and no mark is lost
(R179). -/
abbrev State.marksChanges (s t : State) : Prop :=
  (∀ c : Circuit, s.circuitDirty[c] = true ∨ (t.circuit c).shown ≠ (s.circuit c).shown →
    t.circuitDirty[c] = true) ∧
  (∀ r : RecordIdx, s.messageDirty[r] = true ∨ (t.message r).shown ≠ (s.message r).shown →
    t.messageDirty[r] = true) ∧
  (s.officeDirty = true ∨ t.officeWords.drop 1 ≠ s.officeWords.drop 1 → t.officeDirty = true)

theorem State.marksChanges_trans {s t u : State} (h : s.marksChanges t) (h' : t.marksChanges u) :
    s.marksChanges u := by
  refine ⟨fun c e => h'.1 c ?_, fun r e => h'.2.1 r ?_, fun e => h'.2.2 ?_⟩
  · by_cases k : (u.circuit c).shown = (t.circuit c).shown
    · exact Or.inl (h.1 c (k ▸ e))
    · exact Or.inr k
  · by_cases k : (u.message r).shown = (t.message r).shown
    · exact Or.inl (h.2.1 r (k ▸ e))
    · exact Or.inr k
  · by_cases k : u.officeWords.drop 1 = t.officeWords.drop 1
    · exact Or.inl (h.2.2 (k ▸ e))
    · exact Or.inr k

/-- Where no circuit and no record changes a shown field, the office mark is all there is to keep. -/
theorem State.marksChanges_of {s t : State} (hc : ∀ c, (t.circuit c).shown = (s.circuit c).shown)
    (hm : t.messages = s.messages) (hd : t.circuitDirty = s.circuitDirty) (hr : t.messageDirty = s.messageDirty)
    (ho : s.officeDirty = true ∨ t.officeWords.drop 1 ≠ s.officeWords.drop 1 → t.officeDirty = true) :
    s.marksChanges t :=
  ⟨fun c e => by rw [hd]; exact e.resolve_right fun k => k (hc c),
    fun r e => by rw [hr]; exact e.resolve_right fun k => k (by simp [State.message, hm]), ho⟩

theorem State.marksChanges_refl (s : State) : s.marksChanges s :=
  State.marksChanges_of (fun _ => rfl) rfl rfl rfl fun e => e.resolve_right fun k => k rfl

theorem State.marksChanges_setCircuit (s : State) (c : Circuit) (x : CircuitState) :
    s.marksChanges (s.setCircuit c x) := by
  refine ⟨fun d e => ?_, fun _ e => e.resolve_right fun k => k rfl, fun e => e.resolve_right fun k => k rfl⟩
  by_cases h : d = c
  · subst h
    rw [State.circuit_setCircuit_self] at e
    simpa [State.setCircuit] using e
  · rw [State.circuit_setCircuit_ne _ _ h] at e
    have h' : c.val ≠ d.val := fun e => h (Fin.ext e.symm)
    simpa [State.setCircuit, Vector.getElem_set_ne, h'] using e

theorem State.marksChanges_setCircuits (s : State) (c : Circuit) (xs : List CircuitState) :
    s.marksChanges (s.setCircuits c xs) := by
  induction xs generalizing s with
  | nil => exact s.marksChanges_refl
  | cons x xs ih => exact State.marksChanges_trans (s.marksChanges_setCircuit c x) (ih _)

/-- A record that stays FREE, or stays not FREE, leaves the free record count. -/
theorem State.freeCount_setMessage (s : State) (r : RecordIdx) (m : Message)
    (h : decide (m.state = .free) = decide ((s.message r).state = .free)) :
    (s.setMessage r m).freeCount = s.freeCount := by
  have hr : r.val < s.messages.toList.length := by simp
  have hp : 0 < s.messages.toList.countP (fun m => decide (m.state = .free)) ∨
      ¬ (s.message r).state = .free := by
    by_cases k : (s.message r).state = .free
    · exact Or.inl (List.countP_pos_iff.mpr ⟨s.message r, by simp [State.message], by simp [k]⟩)
    · exact Or.inr k
  unfold State.freeCount
  rw [State.setMessage_messages, Vector.toList_set, List.countP_set hr]
  have e : s.messages.toList[r.val] = s.message r := by simp [State.message]
  rw [e, h]
  rcases hp with hp | hp
  · split <;> omega
  · simp [hp]

theorem State.marksChanges_setMessage (s : State) (r : RecordIdx) (m : Message) :
    s.marksChanges (s.setMessage r m) := by
  refine ⟨fun _ e => e.resolve_right fun k => k rfl, fun q e => ?_, fun e => ?_⟩
  · by_cases h : q = r
    · subst h
      rw [State.message_setMessage_self] at e
      simpa [State.setMessage] using e
    · rw [State.message_setMessage_ne _ _ h] at e
      have h' : r.val ≠ q.val := fun e => h (Fin.ext e.symm)
      simpa [State.setMessage, Vector.getElem_set_ne, h'] using e
  · by_cases h : decide (m.state = .free) = decide ((s.message r).state = .free)
    · have k : (s.setMessage r m).officeWords.drop 1 = s.officeWords.drop 1 := by
        simp only [State.officeWords, s.freeCount_setMessage r m h]
        rfl
      have d := e.resolve_right fun e => e k
      simp [State.setMessage, d]
    · simp [State.setMessage, h]

theorem State.marksChanges_raise (s : State) (p : Place) (g : Word) (k : ReportKind)
    (h : s.reports.lost ≤ 65535) : s.marksChanges (s.raise p g k) := by
  refine State.marksChanges_of (by simp) (by simp) (by simp) (by simp) fun e => ?_
  unfold State.raise at e ⊢
  split
  · rename_i hp
    rw [if_pos hp] at e
    exact e.resolve_right fun k => k rfl
  · rename_i hp
    rw [if_neg hp] at e
    by_cases hl : s.reports.lost < 65535
    · simp [hl]
    · have hl' : min (s.reports.lost + 1) 65535 = s.reports.lost := by omega
      rw [hl'] at e
      have d := e.resolve_right fun k => k rfl
      simp [d]

theorem State.marksChanges_setPool (s : State) (p : Pool) : s.marksChanges (s.setPool p) := by
  refine State.marksChanges_of (fun _ => rfl) rfl rfl rfl fun e => ?_
  by_cases h : p.count = s.pool.count ∧ p.give.isSome = s.pool.give.isSome
  · have k : (s.setPool p).officeWords.drop 1 = s.officeWords.drop 1 := by
      simp only [State.officeWords, State.setPool, h.1, h.2]
      rfl
    have d := e.resolve_right fun e => e k
    simp [State.setPool, d]
  · by_cases hc : p.count = s.pool.count
    · have hg : ¬ p.give.isSome = s.pool.give.isSome := fun hg => h ⟨hc, hg⟩
      simp [State.setPool, hg]
    · simp [State.setPool, hc]

theorem State.marksChanges_setPost (s : State) (w : Option Walk) (o : PostOutcome) :
    s.marksChanges (s.setPost w o) := by
  refine State.marksChanges_of (fun _ => rfl) rfl rfl rfl fun e => ?_
  by_cases h : w.isSome = s.walk.isSome ∧ o = s.postOutcome
  · have k : (s.setPost w o).officeWords.drop 1 = s.officeWords.drop 1 := by
      simp only [State.officeWords, State.setPost, h.1, h.2]
      rfl
    have d := e.resolve_right fun e => e k
    simp [State.setPost, d]
  · by_cases hc : w.isSome = s.walk.isSome
    · have hg : ¬ o = s.postOutcome := fun hg => h ⟨hc, hg⟩
      simp [State.setPost, hg]
    · simp [State.setPost, hc]

/-- The circuit's state and whether its receiver is STOPPED are as they were. -/
abbrev CircuitState.sameMode (x y : CircuitState) : Prop :=
  y.control.state = x.control.state ∧ (y.line.receiver = .stopped ↔ x.line.receiver = .stopped)

/-- The second state comes from the first by changes through the accessors. A circuit's changes together leave it
lawful if it was; where `calm` is set they also leave its circuit state. -/
inductive Made (calm : Bool) (s₀ : State) : State → Prop
  | refl : Made calm s₀ s₀
  | circuits {s : State} {c : Circuit} (k : Made calm s₀ s) (xs : List CircuitState)
      (h : (s.circuit c).lawful → (xs.getLastD (s.circuit c)).lawful)
      (hc : calm = true → (s.circuit c).sameMode (xs.getLastD (s.circuit c))) :
      Made calm s₀ (s.setCircuits c xs)
  | message {s : State} (k : Made calm s₀ s) (r : RecordIdx) (m : Message) : Made calm s₀ (s.setMessage r m)
  | fill {s : State} (k : Made calm s₀ s) (r : RecordIdx) (f : Fill) : Made calm s₀ (s.setFill r f)
  | report {s : State} (k : Made calm s₀ s) (p : Place) (g : Word) (e : ReportKind) :
      Made calm s₀ (s.raise p g e)
  | setPool {s : State} (k : Made calm s₀ s) (p : Pool) : Made calm s₀ (s.setPool p)
  | pool {s : State} (k : Made calm s₀ s) (p : Pool) (hc : p.count = s.pool.count)
      (hg : p.give.isSome = s.pool.give.isSome) : Made calm s₀ { s with pool := p }
  | setPost {s : State} (k : Made calm s₀ s) (w : Option Walk) (o : PostOutcome) :
      Made calm s₀ (s.setPost w o)
  | walk {s : State} (k : Made calm s₀ s) (w : Walk) (h : s.walk.isSome = true) :
      Made calm s₀ { s with walk := some w }
  | writer {s : State} (k : Made calm s₀ s) (w : BlockWriter) : Made calm s₀ { s with writer := w }
  | store {s : State} (k : Made calm s₀ s) (a : Address) (v : Word) : Made calm s₀ (s.writeStore a v)
  | shadow {s : State} (k : Made calm s₀ s) (o : Nat) (v : Word) : Made calm s₀ (s.setShadow o v)
  | owner {s : State} (k : Made calm s₀ s) (b : Nat) (o : Owner) : Made calm s₀ (s.setOwner b o)
  | rehome {s : State} (k : Made calm s₀ s) (r : RecordIdx) (o : Owner) : Made calm s₀ (s.rehome r o)
  | fetchLast {s : State} (k : Made calm s₀ s) (c : Circuit) : Made calm s₀ { s with fetchLast := c }
  | pendingClear {s : State} (k : Made calm s₀ s) (v : Vector Bool 32) :
      Made calm s₀ { s with pendingClear := v }
  | waiting {s : State} (k : Made calm s₀ s) (w : Option PortCycle) : Made calm s₀ { s with waiting := w }
  | readData {s : State} (k : Made calm s₀ s) (w : Option Word) : Made calm s₀ { s with readData := w }
  | port {s : State} (k : Made calm s₀ s) (a : Arbiter) (h : a.reporting = s.arbiter.reporting) :
      Made calm s₀ { s with arbiter := a }
  | consume {s : State} (k : Made calm s₀ s) (v : Word) : Made calm s₀ (consumeReports v s)
  | minute {s : State} (k : Made calm s₀ s) (v : Word) :
      Made calm s₀ { s with minute := v, officeDirty := true }
  | tick {s : State} (k : Made calm s₀ s) (receive loop : Circuit → Bool) (n : Nat) :
      Made calm s₀ (Sys2Proof.Machine.timersTick receive loop n s)
  | clock {s : State} (k : Made calm s₀ s) : Made calm s₀ (Sys2Proof.Machine.clockCycle s)

namespace Made

variable {calm : Bool} {s₀ s : State} {c : Circuit} {r : RecordIdx}

theorem circuit (k : Made calm s₀ s) (x : CircuitState) (h : (s.circuit c).lawful → x.lawful)
    (hc : calm = true → (s.circuit c).sameMode x) : Made calm s₀ (s.setCircuit c x) :=
  circuits k [x] h hc

/-- A change that leaves the line unit and the controller. -/
theorem upd {f : CircuitState → CircuitState} (k : Made calm s₀ s)
    (hl : ∀ x, (f x).line = x.line := by exact fun _ => rfl)
    (hk : ∀ x, (f x).control = x.control := by exact fun _ => rfl) : Made calm s₀ (s.updCircuit c f) :=
  k.circuit _ (fun l => ⟨by rw [hl, hk]; exact l.1, by rw [hk]; exact l.2⟩)
    fun _ => ⟨by rw [hk], by rw [hl]⟩

theorem updLine {f : LineUnit → LineUnit} (k : Made calm s₀ s)
    (h : (f (s.circuit c).line).receiver = .stopped ↔ (s.circuit c).line.receiver = .stopped := by
      exact Iff.rfl) :
    Made calm s₀ (s.updLine c f) :=
  k.circuit _ (fun l => ⟨l.1.trans h.symm, l.2⟩) fun _ => ⟨rfl, h⟩

theorem updRecogniser {f : Recogniser → Recogniser} (k : Made calm s₀ s) :
    Made calm s₀ (s.updRecogniser c f) := k.upd

theorem updFifo {f : List FifoItem → List FifoItem} (k : Made calm s₀ s) : Made calm s₀ (s.updFifo c f) :=
  k.upd

theorem updSend {f : SendController → SendController} (k : Made calm s₀ s) : Made calm s₀ (s.updSend c f) :=
  k.upd

theorem updDialogue {f : Dialogue → Dialogue} (k : Made calm s₀ s) : Made calm s₀ (s.updDialogue c f) :=
  k.upd

theorem updStation {t : StationIdx} {f : Station → Station} (k : Made calm s₀ s) :
    Made calm s₀ (s.updStation c t f) := k.upd

theorem updQueue {p : Precedence} {f : Queue → Queue} (k : Made calm s₀ s) : Made calm s₀ (s.updQueue c p f) :=
  k.upd

/-- A change of the controller that leaves the circuit state and sets no hold pending. -/
theorem updControl {f : Controller → Controller} (k : Made calm s₀ s)
    (h : ∀ x, (f x).state = x.state := by exact fun _ => rfl)
    (hp : ∀ x, (f x).holdPending = true → x.holdPending = true := by exact fun _ => id) :
    Made calm s₀ (s.updControl c f) :=
  k.circuit _ (fun l => ⟨by rw [h]; exact l.1, fun e => by rw [h]; exact l.2 (hp _ e)⟩)
    fun _ => ⟨h _, Iff.rfl⟩

theorem updMessage {f : Message → Message} (k : Made calm s₀ s) : Made calm s₀ (s.updMessage r f) :=
  k.message _ _

theorem updFlags {f : MessageFlags → MessageFlags} (k : Made calm s₀ s) : Made calm s₀ (s.updFlags r f) :=
  k.message _ _

theorem updSlot {j : SlotIdx} {f : Option Delivery → Option Delivery} (k : Made calm s₀ s) :
    Made calm s₀ (s.updSlot r j f) := k.message _ _

theorem setFill {f : Fill} (k : Made calm s₀ s) : Made calm s₀ (s.setFill r f) := k.fill _ _

theorem raise {p : Place} {g : Word} {e : ReportKind} (k : Made calm s₀ s) : Made calm s₀ (s.raise p g e) :=
  k.report _ _ _

theorem writeRelay {o : Nat} {v : Word} (k : Made calm s₀ s) : Made calm s₀ (s.writeRelay o v) := k.store _ _

/-- A fold of changes is a change. -/
theorem foldl {α : Type} {f : State → α → State} (k : Made calm s₀ s) (l : List α)
    (h : ∀ s a, Made calm s₀ s → Made calm s₀ (f s a)) : Made calm s₀ (l.foldl f s) := by
  induction l generalizing s with
  | nil => exact k
  | cons a l ih => exact ih (h s a k)

theorem ite {p : Prop} [Decidable p] {t : State} (h : p → Made calm s₀ s) (h' : ¬ p → Made calm s₀ t) :
    Made calm s₀ (if p then s else t) := by
  split
  · exact h ‹_›
  · exact h' ‹_›

/-! ### The line unit, the send side and the schedulers -/

theorem compareSpeed {rx tx : Bool} (k : Made calm s₀ s) : Made calm s₀ (compareSpeed rx tx c s) :=
  ite (fun _ => updLine (ite (fun _ => updLine k.raise) fun _ => k)) fun _ => k

theorem compareAtRest (k : Made calm s₀ s) : Made calm s₀ (compareAtRest c s) := k.compareSpeed

theorem endSend (k : Made calm s₀ s) : Made calm s₀ (endSend c s) := k.updSend

theorem assignChannel {d : Delivery} (k : Made calm s₀ s) : Made calm s₀ (assignChannel c d s).2 := by
  unfold Machine.assignChannel
  split
  · split
    · exact k
    · exact updStation (f := fun t => { t with outgoing := nextChannel t.outgoing }) k
  · exact upd (f := fun x => { x with outgoing := nextChannel x.outgoing }) k

theorem startTransmission {e : QueueEntry} (k : Made calm s₀ s) : Made calm s₀ (startTransmission c e s) := by
  unfold Machine.startTransmission
  split
  · exact k
  · exact updSend (updSlot (assignChannel (updQueue k)))

theorem absorb {j : SlotIdx} {d : Delivery} (k : Made calm s₀ s) : Made calm s₀ (absorb r j d s).2.2 := by
  unfold Machine.absorb
  split
  · exact k
  · split
    · exact k
    · exact updSlot (f := fun _ => none) (updQueue k)

theorem returnDelivery {keep : Bool} (k : Made calm s₀ s) : Made calm s₀ (returnDelivery c keep s) := by
  unfold Machine.returnDelivery
  split
  · exact k
  · split
    · exact endSend k
    · exact endSend (updQueue (updSlot (absorb k)))

theorem takeOffered (k : Made calm s₀ s) : Made calm s₀ (takeOffered c s) := by
  unfold Machine.takeOffered
  split
  · exact k.updLine
  · exact ite (fun _ => updSend k.updLine) fun _ => k.updLine

theorem beginCancelLine {cause : CancelCause} (k : Made calm s₀ s) :
    Made calm s₀ (beginCancelLine c cause s) :=
  ite (fun _ => updDialogue k.updSend) fun _ => k.updSend

theorem judgePoint (k : Made calm s₀ s) : Made calm s₀ (judgePoint c s) := by
  unfold Machine.judgePoint
  split
  · split
    · exact k.startTransmission
    · exact k
  · exact k

theorem selectFor {e : QueueEntry} (k : Made calm s₀ s) : Made calm s₀ (selectFor c e s) := by
  unfold Machine.selectFor
  split
  · exact k.updDialogue
  · exact k

theorem pollStation {t : StationIdx} (k : Made calm s₀ s) : Made calm s₀ (pollStation c t s) := by
  unfold Machine.pollStation
  exact k.updDialogue

theorem judgeParty (k : Made calm s₀ s) : Made calm s₀ (judgeParty c s) := by
  unfold Machine.judgeParty
  dsimp only
  split
  · split <;> first | exact k | exact k.selectFor | exact k.pollStation
  · exact k

theorem judge (k : Made calm s₀ s) : Made calm s₀ (judge c s) :=
  ite (fun _ => k.judgeParty) fun _ => k.judgePoint

/-! ### The pool and the message table -/

theorem judgeSuspension (k : Made calm s₀ s) : Made calm s₀ (judgeSuspension s) := by
  have p : Made calm s₀ { s with pool := { s.pool with suspension := s.suspendedNow } } := k.pool _ rfl rfl
  exact ite (fun _ => p.foldl _ fun _ _ k => ite (fun _ => k.judgeParty) fun _ => k) fun _ => p

theorem takeRequest (k : Made calm s₀ s) : Made calm s₀ (takeRequest s) := by
  unfold Machine.takeRequest
  split
  · exact ite (fun _ => k.pool _ rfl rfl) fun _ => k
  · exact k

theorem poolChanged (k : Made calm s₀ s) : Made calm s₀ (poolChanged s) := k.takeRequest.judgeSuspension

theorem returnChain (k : Made calm s₀ s) : Made calm s₀ (returnChain r s) := by
  unfold Machine.returnChain
  dsimp only
  split
  · exact k
  · exact (k.rehome _ _).setPool _

theorem giveEnd (k : Made calm s₀ s) : Made calm s₀ (giveEnd s) := by
  unfold Machine.giveEnd
  split
  · exact k
  · exact ite (fun _ => k) fun _ => (k.setPool _).raise

theorem giveOrder {v : Word} (k : Made calm s₀ s) : Made calm s₀ (giveOrder v s) := by
  unfold Machine.giveOrder
  split
  · exact k.raise
  · exact (k.setPool _).giveEnd

theorem giveJoin {g : Give} (k : Made calm s₀ s) : Made calm s₀ (giveJoin g s) :=
  ((k.owner _ _).setPool _).giveEnd.poolChanged

theorem giveSkip {g : Give} (k : Made calm s₀ s) : Made calm s₀ (giveSkip g s) := by
  unfold Machine.giveSkip
  exact (k.setPool _).giveEnd

theorem grantRecord {state : RecordState} {origin : Origin} (k : Made calm s₀ s) :
    Made calm s₀ (grantRecord r state origin s) := k.updMessage.judgeSuspension

theorem becomeFree (k : Made calm s₀ s) : Made calm s₀ (becomeFree r s) := k.updMessage

theorem freeRecord (k : Made calm s₀ s) : Made calm s₀ (freeRecord r s) :=
  k.returnChain.raise.becomeFree.poolChanged

theorem freeCancelled (k : Made calm s₀ s) : Made calm s₀ (freeCancelled r s) :=
  k.returnChain.raise.setFill.becomeFree.poolChanged

theorem settle (k : Made calm s₀ s) : Made calm s₀ (settle r s) := by
  have d : Made calm s₀ (if (s.message r).state = .routed && !(s.message r).hasPending then
      s.updMessage r fun m => { m with state := .done } else s) := ite (fun _ => k.updMessage) fun _ => k
  exact ite (fun _ => d.freeRecord) fun _ => d

theorem releaseOrder {tag : Word} (k : Made calm s₀ s) : Made calm s₀ (releaseOrder tag s) := by
  unfold Machine.releaseOrder
  dsimp only
  split
  · exact k.raise
  · exact ite (fun _ => k.updMessage.settle) fun _ => k.raise

theorem minuteTick (k : Made calm s₀ s) : Made calm s₀ (minuteTick s) :=
  (k.minute _).foldl _ fun _ _ k => ite (fun _ => k.raise.updMessage) fun _ => k

theorem officeTick {receive loop : Circuit → Bool} (k : Made calm s₀ s) :
    Made calm s₀ (officeTick receive loop s) :=
  ite (fun _ => k.tick _ _ _) fun _ => (k.tick _ _ _).minuteTick

theorem minuteTickEvent (k : Made calm s₀ s) : Made calm s₀ (minuteTickEvent s) :=
  ite (fun _ => k) fun _ => k.officeTick

/-! ### The runs of the M-port -/

theorem makeWrites {ws : List (Nat × Word)} (k : Made calm s₀ s) : Made calm s₀ (makeWrites ws s) :=
  k.foldl _ fun _ _ k => k.writeRelay

/-- An arbiter that holds another requester's run is not reporting. -/
theorem reporting_granted {run : Run} (made : Nat) (h : run ≠ .report) :
    (Arbiter.granted run made).reporting = false := by
  cases run <;> first | rfl | exact absurd rfl h

theorem endRun {run : Run} {made : Nat} (k : Made calm s₀ s) (h : s.arbiter.reporting = false) :
    Made calm s₀ (endRun run made s) := by
  refine k.makeWrites.port _ ?_
  rw [makeWrites_eq]
  exact h.symm

/-- An event at the end of a run of the block writer, the fetcher or the pool unit. -/
theorem onRun {effect : Run → Option (State → State)} (k : Made calm s₀ s)
    (h : ∀ run f, effect run = some f → run ≠ .report ∧ (∀ m ws, run ≠ .mirror m ws) ∧
      ∀ t, Made calm s₀ t → Made calm s₀ (f t)) : Made calm s₀ (onRun effect s) := by
  rcases onRun_cases effect s with e | ⟨run, made, f, ha, hf, e⟩ | ⟨run, f, hn, hf, e⟩
  · rw [e]
    exact k
  · obtain ⟨hr, -, ht⟩ := h run f hf
    rw [e]
    exact ht _ (k.endRun (by rw [ha]; exact reporting_granted made hr))
  · obtain ⟨hr, hm, ht⟩ := h run f hf
    rw [e]
    refine ht _ (endRun ?_ (by rw [grantRun_arbiter]; exact reporting_granted 0 hr))
    have p : Made calm s₀ { s with arbiter := .granted run 0 } := k.port _
      ((reporting_granted 0 hr).trans (Arbiter.reporting_of_open (State.open_of_nextRun hn)).symm)
    cases run with
    | report => exact absurd rfl hr
    | mirror m ws => exact absurd rfl (hm m ws)
    | fetchBlock c f => exact p.fetchLast c
    | fetchText c f => exact p.fetchLast c
    | _ => exact p

/-! ### Routing and posting -/

theorem makeDelivery {g : Target × PositionSet} (k : Made calm s₀ s) :
    Made calm s₀ (makeDelivery r s g) := by
  unfold Machine.makeDelivery
  split
  · exact k
  · exact updQueue k.updSlot

theorem routeRecord {p : Place} {f : Message → ReportKind} (k : Made calm s₀ s) :
    Made calm s₀ (routeRecord r p f s) := by
  unfold Machine.routeRecord
  refine settle (foldl (raise (foldl (updMessage k) _ fun _ _ k => k.makeDelivery)) _ fun _ _ k => k.judge)

theorem interceptRecord (k : Made calm s₀ s) : Made calm s₀ (interceptRecord r s) :=
  k.updMessage.raise.settle

theorem takeReceived {cause : EndCause} (k : Made calm s₀ s) : Made calm s₀ (takeReceived r cause s) := by
  unfold Machine.takeReceived
  have f : Made calm s₀ (if cause = .missingEnd then (s.setFill r .empty).updFlags r fun f =>
      { f with missingEnd := true } else s.setFill r .empty) :=
    ite (fun _ => k.setFill.updFlags) fun _ => k.setFill
  exact ite (fun _ => f.interceptRecord) fun _ => f.routeRecord

theorem divertEnd (k : Made calm s₀ s) : Made calm s₀ (divertEnd c s) :=
  ite (fun _ => judge (raise (updControl k))) fun _ => k

theorem mergeCode {j : SlotIdx} {i : Nat} (k : Made calm s₀ s) : Made calm s₀ (mergeCode r j i s) := by
  unfold Machine.mergeCode
  split
  · exact k
  · exact updQueue k.updSlot

theorem divertCode {i : Nat} (k : Made calm s₀ s) : Made calm s₀ (divertCode c r s i) := by
  unfold Machine.divertCode
  split
  · exact upd k.updMessage
  · split
    · exact k.mergeCode
    · exact k.makeDelivery

theorem divertTake {e : QueueEntry} {d : Delivery} (k : Made calm s₀ s) :
    Made calm s₀ (divertTake c e d s) := by
  have t : ∀ (l : List Circuit) s, Made calm s₀ s → Made calm s₀ (l.foldl (fun s t => Machine.judge t s) s) :=
    fun l _ k => k.foldl l fun _ _ k => k.judge
  have f := foldl (f := Machine.divertCode c e.record) (upd (c := c) (f := fun x =>
      { x with divert := { x.divert with taken := x.divert.taken + 1 } })
      (updSlot (r := e.record) (j := e.slot) (f := fun _ => none)
        (updQueue (c := c) (p := (s.message e.record).rank) (f := fun q => q.leave e.record e.slot) k)))
    (positionsOf d.codes) fun _ _ k => k.divertCode
  unfold Machine.divertTake
  exact t _ _ (divertEnd (settle (ite (fun _ => f.raise) fun _ => f)))

theorem divertStep (k : Made calm s₀ s) : Made calm s₀ (divertStep c s) := by
  unfold Machine.divertStep
  split
  · split
    · split
      · exact k.divertTake
      · exact k
    · exact k
  · exact k

theorem refusePost {o : PostOutcome} (k : Made calm s₀ s) : Made calm s₀ (refusePost o s) :=
  (k.setPost _ _).raise

theorem postOrder (k : Made calm s₀ s) : Made calm s₀ (postOrder s) := by
  unfold Machine.postOrder
  split
  · exact k.refusePost
  · split
    · exact k.refusePost
    · exact k.refusePost
    · exact k.grantRecord.updMessage.setPost _ _

theorem rollBack {w : Walk} {o : PostOutcome} (k : Made calm s₀ s) : Made calm s₀ (rollBack w o s) :=
  ((k.rehome _ _).raise.becomeFree.setPost _ _).judgeSuspension

theorem walkOn {w : Walk} {link : Word} (h : s.walk.isSome = true) (k : Made calm s₀ s) :
    Made calm s₀ (walkOn w link s) :=
  ite (fun _ => ite (fun _ => k.rollBack) fun _ => k.walk _ h)
    fun _ => ite (fun _ => k.walk _ h) fun _ => k.rollBack

theorem walkRead {w : Walk} (h : s.walk.isSome = true) (k : Made calm s₀ s) : Made calm s₀ (walkRead w s) :=
  ite (fun _ => walkOn h (k.owner _ _)) fun _ => k.rollBack

theorem walkEnd {w : Walk} (k : Made calm s₀ s) : Made calm s₀ (walkEnd w s) := by
  unfold Machine.walkEnd
  extract_lets t
  have h : Made calm s₀ t := updMessage k
  exact (h.setPost _ _).routeRecord

theorem walkReadDone (k : Made calm s₀ s) : Made calm s₀ (walkReadDone s) := by
  refine onRun k fun run f h => ?_
  split at h <;> cases h
  refine ⟨nofun, nofun, fun t k => ?_⟩
  unfold onWalk
  split
  · rename_i hw
    exact k.walkRead (by rw [hw]; rfl)
  · exact k

theorem walkEndWriteDone (k : Made calm s₀ s) : Made calm s₀ (walkEndWriteDone s) := by
  refine onRun k fun run f h => ?_
  split at h <;> cases h
  refine ⟨nofun, nofun, fun t k => ?_⟩
  unfold onWalk
  split
  · exact k.walkEnd
  · exact k

/-! ### The block writer -/

theorem requestBlock (k : Made calm s₀ s) : Made calm s₀ (requestBlock r s) :=
  ite (fun _ => (k.writer _).takeRequest) fun _ => k.pool _ rfl rfl

theorem placeCharacter {v : RelayChar} (k : Made calm s₀ s) : Made calm s₀ (placeCharacter c v r s) :=
  ite (fun _ => updFifo (setFill (k.writer _))) fun _ => (k.writer _).writer _

theorem textCharacterTaken (k : Made calm s₀ s) : Made calm s₀ (textCharacterTaken s) := by
  unfold Machine.textCharacterTaken
  split
  · split
    · exact k
    · split
      · exact ite (fun _ => k.requestBlock) fun _ => k.placeCharacter
      · exact k
  · exact k

theorem endingReached (k : Made calm s₀ s) : Made calm s₀ (endingReached s) := by
  unfold Machine.endingReached
  split
  · split
    · exact k
    · split
      · dsimp only
        split
        · exact (updFifo (k.writer _)).takeReceived
        · exact (updFifo (k.writer _)).writer _
      · exact k
  · exact k

theorem afterWrite {a : AfterWrite} (k : Made calm s₀ s) : Made calm s₀ (afterWrite a s) := by
  unfold Machine.afterWrite
  split
  · exact k
  · exact updFifo k.setFill
  · exact ite (fun _ => k.freeCancelled) fun _ => k
  · exact k.takeReceived

theorem blockWritten {w : BlockWrite} (k : Made calm s₀ s) : Made calm s₀ (blockWritten w s) := by
  unfold Machine.blockWritten
  split
  · exact k
  · exact ite (fun _ => (k.writer _).afterWrite) fun _ => k

theorem blockWriteDone (k : Made calm s₀ s) : Made calm s₀ (blockWriteDone s) := by
  refine onRun k fun run f h => ?_
  split at h <;> cases h
  exact ⟨nofun, nofun, fun t k => k.blockWritten⟩

theorem completeTake {b : Nat} (k : Made calm s₀ s) : Made calm s₀ (completeTake r b s) := by
  unfold Machine.completeTake
  extract_lets link f s₁ s₂ w s₃ s₄
  have k₁ : Made calm s₀ s₁ := (k.setPool _).owner _ _
  have k₂ : Made calm s₀ s₂ := setFill (updMessage k₁)
  have k₃ : Made calm s₀ s₃ := k₂.writer _
  exact poolChanged (ite (fun _ => k₃.freeCancelled) fun _ => k₃)

theorem takeComplete (k : Made calm s₀ s) : Made calm s₀ (takeComplete s) := by
  refine onRun k fun run f h => ?_
  split at h <;> cases h
  refine ⟨nofun, nofun, fun t k => ?_⟩
  unfold takeRead
  split
  · exact k.completeTake
  · exact k

theorem returnWriteDone (k : Made calm s₀ s) : Made calm s₀ (returnWriteDone s) := by
  refine onRun k fun run f h => ?_
  split at h <;> cases h
  exact ⟨nofun, nofun, fun t k => k.pool _ rfl rfl⟩

theorem giveStep (k : Made calm s₀ s) : Made calm s₀ (giveStep s) := by
  refine ite (fun _ => ?_) fun _ => onRun k fun run f h => ?_
  · unfold onGive
    split
    · exact k.giveSkip
    · exact k
  · split at h <;> cases h
    refine ⟨nofun, nofun, fun t k => ?_⟩
    unfold onGive
    split
    · exact k.giveJoin
    · exact k

theorem cancelFilling (k : Made calm s₀ s) : Made calm s₀ (cancelFilling c r s) :=
  ite (fun _ => setFill (writer (updFifo k) _)) fun _ => freeCancelled (writer (updFifo k) _)

/-! ### The change of a circuit's state -/

/-- A state change at the end of a circuit's changes, which together leave it lawful. -/
theorem setModeAfter {mode : CircuitMode} {cause : StateCause} (k : Made false s₀ s) (xs : List CircuitState)
    (h : (s.circuit c).lawful →
      (mode = .closed ↔ (xs.getLastD (s.circuit c)).line.receiver = .stopped) ∧
      ((xs.getLastD (s.circuit c)).control.holdPending = true → mode = .ready)) :
    Made false s₀ (setMode c mode cause (s.setCircuits c xs)) := by
  have e : (s.setCircuits c xs).updControl c (fun k => { k with state := mode }) =
      s.setCircuits c (xs ++ [{ xs.getLastD (s.circuit c) with
        control := { (xs.getLastD (s.circuit c)).control with state := mode } }]) := by
    rw [State.setCircuits_concat, State.updControl_eq, State.circuit_setCircuits]
  refine compareAtRest (raise ?_)
  rw [e]
  refine circuits k _ ?_ nofun
  rw [List.getLastD_concat]
  exact h

/-- A state change after two changes of its circuit. -/
theorem setModeOf {mode : CircuitMode} {cause : StateCause} {f g : CircuitState → CircuitState}
    (k : Made false s₀ s)
    (h : (s.circuit c).lawful → (mode = .closed ↔ (g (f (s.circuit c))).line.receiver = .stopped) ∧
      ((g (f (s.circuit c))).control.holdPending = true → mode = .ready)) :
    Made false s₀ (Machine.setMode c mode cause ((s.updCircuit c f).updCircuit c g)) := by
  have e : (s.updCircuit c f).updCircuit c g = s.setCircuits c [f (s.circuit c), g (f (s.circuit c))] := by
    rw [State.updCircuit, State.circuit_updCircuit_self]
    rfl
  rw [e]
  exact setModeAfter k _ h

/-- A state change after three changes of its circuit. -/
theorem setModeOf₃ {mode : CircuitMode} {cause : StateCause} {f g e : CircuitState → CircuitState}
    (k : Made false s₀ s)
    (h : (s.circuit c).lawful → (mode = .closed ↔ (e (g (f (s.circuit c)))).line.receiver = .stopped) ∧
      ((e (g (f (s.circuit c)))).control.holdPending = true → mode = .ready)) :
    Made false s₀ (Machine.setMode c mode cause (((s.updCircuit c f).updCircuit c g).updCircuit c e)) := by
  have eq : ((s.updCircuit c f).updCircuit c g).updCircuit c e =
      s.setCircuits c [f (s.circuit c), g (f (s.circuit c)), e (g (f (s.circuit c)))] := by
    rw [State.updCircuit, State.circuit_updCircuit_self, State.circuit_updCircuit_self]
    simp only [State.updCircuit, State.circuit_setCircuit_self]
    rfl
  rw [eq]
  exact setModeAfter k _ h

theorem setMode {mode : CircuitMode} {cause : StateCause} (k : Made false s₀ s)
    (h : (s.circuit c).lawful → (mode = .closed ↔ (s.circuit c).line.receiver = .stopped) ∧
      ((s.circuit c).control.holdPending = true → mode = .ready)) :
    Made false s₀ (setMode c mode cause s) := setModeAfter k [] h

/-- What is made calmly is made. -/
theorem ofCalm {t : State} (h : Made true s₀ t) : Made false s₀ t := by
  induction h with
  | refl => exact refl
  | circuits _ xs h _ ih => exact ih.circuits xs h nofun
  | message _ r m ih => exact ih.message r m
  | fill _ r f ih => exact ih.fill r f
  | report _ p g e ih => exact ih.report p g e
  | setPool _ p ih => exact ih.setPool p
  | pool _ p hc hg ih => exact ih.pool p hc hg
  | setPost _ w o ih => exact ih.setPost w o
  | walk _ w h ih => exact ih.walk w h
  | writer _ w ih => exact ih.writer w
  | store _ a v ih => exact ih.store a v
  | shadow _ o v ih => exact ih.shadow o v
  | owner _ b o ih => exact ih.owner b o
  | rehome _ r o ih => exact ih.rehome r o
  | fetchLast _ c ih => exact ih.fetchLast c
  | pendingClear _ v ih => exact ih.pendingClear v
  | waiting _ w ih => exact ih.waiting w
  | readData _ w ih => exact ih.readData w
  | port _ a h ih => exact ih.port a h
  | consume _ v ih => exact ih.consume v
  | minute _ v ih => exact ih.minute v
  | tick _ a b n ih => exact ih.tick a b n
  | clock _ ih => exact ih.clock

/-- Changes in turn are changes. -/
theorem trans {t : State} (k : Made calm s₀ s) (h : Made calm s t) : Made calm s₀ t := by
  induction h with
  | refl => exact k
  | circuits _ xs h hc ih => exact ih.circuits xs h hc
  | message _ r m ih => exact ih.message r m
  | fill _ r f ih => exact ih.fill r f
  | report _ p g e ih => exact ih.report p g e
  | setPool _ p ih => exact ih.setPool p
  | pool _ p hc hg ih => exact ih.pool p hc hg
  | setPost _ w o ih => exact ih.setPost w o
  | walk _ w h ih => exact ih.walk w h
  | writer _ w ih => exact ih.writer w
  | store _ a v ih => exact ih.store a v
  | shadow _ o v ih => exact ih.shadow o v
  | owner _ b o ih => exact ih.owner b o
  | rehome _ r o ih => exact ih.rehome r o
  | fetchLast _ c ih => exact ih.fetchLast c
  | pendingClear _ v ih => exact ih.pendingClear v
  | waiting _ w ih => exact ih.waiting w
  | readData _ w ih => exact ih.readData w
  | port _ a h ih => exact ih.port a h
  | consume _ v ih => exact ih.consume v
  | minute _ v ih => exact ih.minute v
  | tick _ a b n ih => exact ih.tick a b n
  | clock _ ih => exact ih.clock

theorem transmissionEnded (k : Made false s₀ s) : Made false s₀ (transmissionEnded c s) := by
  unfold Machine.transmissionEnded
  split
  · rename_i hp
    refine setModeAfter k [_] fun l => ?_
    refine ⟨⟨nofun, fun e => ?_⟩, nofun⟩
    have hr := l.2 hp
    rw [l.1.2 e] at hr
    exact nomatch hr
  · exact k

/-! ### The dialogue and the recogniser -/

theorem enterQuiet (k : Made calm s₀ s) : Made calm s₀ (enterQuiet c s) := k.updDialogue

theorem quietAndJudge (k : Made calm s₀ s) : Made calm s₀ (quietAndJudge c s) := k.enterQuiet.judge

theorem beginWait {state : DialogueState} (k : Made calm s₀ s) : Made calm s₀ (beginWait c state s) := by
  unfold Machine.beginWait
  exact k.updDialogue

theorem stationFailed {t : StationIdx} (k : Made calm s₀ s) : Made calm s₀ (stationFailed c t s) :=
  ite (fun _ => raise k.updStation) fun _ => k.updStation

theorem stationGood {t : StationIdx} (k : Made calm s₀ s) : Made calm s₀ (stationGood c t s) := k.updStation

theorem stationAnswers {t : StationIdx} (k : Made calm s₀ s) : Made calm s₀ (stationAnswers c t s) :=
  ite (fun _ => k.updStation) fun _ => raise k.updStation

theorem failedAttempt (k : Made false s₀ s) : Made false s₀ (failedAttempt c s) := by
  unfold Machine.failedAttempt
  extract_lets d s₁ s₂ s₃
  have k₁ : Made false s₀ s₁ := k.updDialogue
  have k₂ : Made false s₀ s₂ := ite (fun _ => k₁.returnDelivery.transmissionEnded) fun _ => k₁
  have k₃ : Made false s₀ s₃ := by
    unfold s₃
    split
    · exact k₂.stationFailed
    · exact k₂
  exact k₃.quietAndJudge

theorem dialogueEnding {cause : EndCause} {clean : Bool} (k : Made false s₀ s) :
    Made false s₀ (dialogueEnding c cause clean s) := by
  unfold Machine.dialogueEnding
  split
  · split
    · exact k.updDialogue
    · exact k
    · exact k.quietAndJudge
    · exact k.failedAttempt
    · exact k
  · exact k

theorem stopDialogue (k : Made calm s₀ s) : Made calm s₀ (stopDialogue c s) := k.updDialogue

theorem startMessage (k : Made calm s₀ s) : Made calm s₀ (startMessage c s) := by
  unfold Machine.startMessage
  dsimp only
  split
  · exact updRecogniser k.grantRecord
  · exact k.updRecogniser

theorem discardEnd (k : Made calm s₀ s) : Made calm s₀ (discardEnd c s) := by
  unfold Machine.discardEnd
  dsimp only
  refine updRecogniser ?_
  split <;> first | exact k.raise | exact k

/-- The part of an ending that the recogniser does before the dialogue is told. -/
theorem ending {r? : Option RecordIdx} {cause : EndCause} {lineStart : Bool} (k : Made calm s₀ s) :
    Made calm s₀ ((match r? with
      | some r => s.updFifo c fun fifo => fifo ++ [FifoItem.ending r cause]
      | none => s).updRecogniser c fun q =>
        { q with state := .hunt, lineStart := lineStart, held := [], somCount := 0, filling := none }) := by
  refine updRecogniser ?_
  split
  · exact k.updFifo
  · exact k

theorem endMessage {cause : EndCause} {lineStart : Bool} (k : Made false s₀ s) :
    Made false s₀ (endMessage c cause lineStart s) := k.discardEnd.ending.dialogueEnding

/-- A reception that is stopped leaves the circuit state. -/
theorem endMessage_stopped {lineStart : Bool} (k : Made calm s₀ s) :
    Made calm s₀ (Machine.endMessage c .stopped lineStart s) := by
  have e : ∀ clean t, Machine.dialogueEnding c .stopped clean t = t := fun clean t => by
    simp [Machine.dialogueEnding]
  unfold Machine.endMessage
  simp only [e]
  exact k.discardEnd.ending

theorem patternEom (k : Made false s₀ s) : Made false s₀ (patternEom c s) := by
  unfold Machine.patternEom
  dsimp only
  refine endMessage ?_
  split
  · exact k.updFlags
  · exact k

theorem patternCancel (k : Made false s₀ s) : Made false s₀ (patternCancel c s) := by
  unfold Machine.patternCancel
  extract_lets s₁ filling s₂ s₃
  have k₂ : Made false s₀ s₂ := updRecogniser k.discardEnd
  have k₃ : Made false s₀ s₃ := by
    unfold s₃ filling
    split
    · exact k₂.cancelFilling
    · exact k₂
  exact k₃.dialogueEnding

theorem patternSom (k : Made false s₀ s) : Made false s₀ (patternSom c s) := k.endMessage.startMessage

theorem huntChar {ch : RxChar} (k : Made calm s₀ s) : Made calm s₀ (huntChar c ch s) := by
  unfold Machine.huntChar
  dsimp only
  split
  · exact k.updRecogniser
  · split
    · exact k
    · split
      · split
        · exact startMessage k.updRecogniser
        · exact k.updRecogniser
      · exact k.updRecogniser

theorem setExpected {e : Option Nat} (k : Made calm s₀ s) : Made calm s₀ (setExpected c e s) := by
  unfold Machine.setExpected
  split
  · exact k.updStation
  · exact k.updRecogniser

theorem takeNumber {n : Nat} (k : Made calm s₀ s) : Made calm s₀ (takeNumber c r n s) := by
  unfold Machine.takeNumber
  extract_lets result t
  have h : Made calm s₀ t := setExpected k.updMessage
  split
  · exact h
  · exact h.updFlags
  · exact h.raise

theorem headingChar {ch : RxChar} (k : Made calm s₀ s) : Made calm s₀ (headingChar c ch s) := by
  unfold Machine.headingChar
  dsimp only
  split
  · exact k
  · split
    · unfold applyHead
      dsimp only
      split
      · exact k.updRecogniser
      · exact updRecogniser k.takeNumber
      · exact updRecogniser k.updMessage
      · exact updRecogniser k.updMessage
      · exact k.updRecogniser
      · exact updRecogniser k.updFlags
    · exact k

theorem destChar {ch : RxChar} (k : Made calm s₀ s) : Made calm s₀ (destChar c ch s) := by
  unfold Machine.destChar
  dsimp only
  split
  · exact k
  · split
    · exact k
    · split
      · exact updRecogniser k.updMessage
      · split
        · exact updRecogniser (ite (fun _ => updFlags k.updMessage) fun _ => k.updMessage)
        · exact k.updRecogniser

theorem dropOne (k : Made calm s₀ s) : Made calm s₀ (dropOne c s) := k.updRecogniser

theorem offerText {ch : RxChar} (k : Made calm s₀ s) : Made calm s₀ (offerText c ch s) := by
  unfold Machine.offerText
  split
  · exact k
  · split
    · extract_lets t
      have h : Made calm s₀ t := updMessage k.updFifo
      exact ite (fun _ => updRecogniser h.updFlags) fun _ => h
    · exact updRecogniser k.updFlags

theorem ordinaryChar {counted : Bool} {ch : RxChar} (k : Made calm s₀ s) :
    Made calm s₀ (ordinaryChar c counted ch s) := by
  unfold Machine.ordinaryChar
  dsimp only
  split
  · exact k.destChar
  · exact ite (fun _ => updRecogniser k.offerText) fun _ => k.offerText
  · exact ite (fun _ => k.updRecogniser) fun _ => k
  · have d : Made calm s₀ (if counted = true then s else Machine.dropOne c s) := ite (fun _ => k) fun _ => k.dropOne
    exact ite (fun _ => d.updRecogniser) fun _ => d
  · exact k
  · exact k

theorem releaseHeld {counted : Bool} (k : Made calm s₀ s) : Made calm s₀ (releaseHeld c counted s) := by
  unfold Machine.releaseHeld
  exact foldl k.updRecogniser _ fun _ _ k => k.ordinaryChar

theorem breakPattern {counted : Bool} {ch : RxChar} (k : Made calm s₀ s) :
    Made calm s₀ (breakPattern c counted ch s) := ordinaryChar (updRecogniser k.releaseHeld)

theorem patternDone {letter : RelayChar} (k : Made false s₀ s) : Made false s₀ (patternDone c letter s) :=
  ite (fun _ => patternEom k.updRecogniser) fun _ =>
    ite (fun _ => patternCancel k.updRecogniser) fun _ => patternSom k.updRecogniser

theorem watchChar {counted : Bool} {ch : RxChar} (k : Made false s₀ s) :
    Made false s₀ (watchChar c counted ch s) := by
  unfold Machine.watchChar
  dsimp only
  split
  · split
    · exact k.updRecogniser
    · exact k.patternDone
    · exact k.breakPattern
  · exact k.ordinaryChar

theorem countMutilated {mutilated : Bool} (k : Made calm s₀ s) : Made calm s₀ (countMutilated c mutilated s) := by
  unfold Machine.countMutilated
  split
  · exact k.updMessage
  · exact k

theorem recogniserChar {value : RelayChar} {mutilated : Bool} (k : Made false s₀ s) :
    Made false s₀ (recogniserChar c value mutilated s) := by
  unfold Machine.recogniserChar
  extract_lets shift ch load t
  have h : Made false s₀ t := countMutilated k.updRecogniser
  split
  · exact h.huntChar
  · exact h.headingChar
  · exact h.watchChar
  · exact h.watchChar
  · exact h.watchChar
  · exact h.dropOne.watchChar

theorem markTruncated (k : Made calm s₀ s) : Made calm s₀ (markTruncated c s) := by
  unfold Machine.markTruncated
  split
  · exact k.updFlags
  · exact k

theorem silenceExpiry (k : Made false s₀ s) : Made false s₀ (silenceExpiry c s) :=
  ite (fun _ => ite (fun _ => k.updRecogniser) fun _ =>
    endMessage (markTruncated (releaseHeld k.updRecogniser))) fun _ => k

theorem stopReception (k : Made calm s₀ s) : Made calm s₀ (stopReception c s) :=
  ite (fun _ => k) fun _ => endMessage_stopped (markTruncated k.updRecogniser)

/-! ### Transmissions -/

theorem afterTransmission (k : Made false s₀ s) : Made false s₀ (afterTransmission c s) :=
  ite (fun _ => k.transmissionEnded.quietAndJudge) fun _ => k.transmissionEnded.judgePoint

theorem endActive {j : SlotIdx} {state : DeliveryState} (k : Made calm s₀ s) :
    Made calm s₀ (endActive c r j state s) := endSend k.updSlot

theorem deliverActive (k : Made calm s₀ s) : Made calm s₀ (deliverActive c s) := by
  unfold Machine.deliverActive
  dsimp only
  split
  · exact k
  · split
    · exact k.endSend
    · exact k.endActive.raise.settle

theorem cancelActive (k : Made calm s₀ s) : Made calm s₀ (cancelActive c s) := by
  unfold Machine.cancelActive
  split
  · exact k
  · exact k.endActive.settle

theorem preemptReturn (k : Made calm s₀ s) : Made calm s₀ (preemptReturn c s) := by
  unfold Machine.preemptReturn
  split
  · exact k
  · exact k.returnDelivery.raise

theorem trailerEnd (k : Made false s₀ s) : Made false s₀ (trailerEnd c s) := by
  unfold Machine.trailerEnd
  split
  · extract_lets p t
    have h : Made false s₀ t := beginWait k.updSend
    exact ite (fun _ => h.cancelActive.afterTransmission) fun _ => h
  · exact k.deliverActive.afterTransmission

theorem cancelLineEnd (k : Made false s₀ s) : Made false s₀ (cancelLineEnd c s) :=
  ite (fun _ => k.cancelActive.afterTransmission) fun _ => k.preemptReturn.afterTransmission

theorem enterPhase {phase : Phase} (k : Made calm s₀ s) : Made calm s₀ (enterPhase c phase s) := k.updSend

theorem sendCharLeft (k : Made false s₀ s) : Made false s₀ (sendCharLeft c s) := by
  unfold Machine.sendCharLeft
  extract_lets x phaseDone length t
  have h : Made false s₀ t := k.updSend
  refine ite (fun _ => h.beginCancelLine) fun _ => ?_
  split
  · exact ite (fun _ => h.enterPhase) fun _ => h
  · exact ite (fun _ => h.enterPhase) fun _ => h
  · exact ite (fun _ => h.enterPhase) fun _ => h
  · exact ite (fun _ => h.trailerEnd) fun _ => h
  · exact ite (fun _ => h.cancelLineEnd) fun _ => h
  · exact h
  · exact h

theorem dialogueCharLeft (k : Made calm s₀ s) : Made calm s₀ (dialogueCharLeft c s) := by
  unfold Machine.dialogueCharLeft
  extract_lets d finished t
  have h : Made calm s₀ t := k.updDialogue
  split
  · exact h.beginWait
  · exact h.beginWait
  · exact quietAndJudge h.updDialogue
  · exact h

theorem characterBoundary (k : Made false s₀ s) : Made false s₀ (characterBoundary c s) := by
  unfold Machine.characterBoundary
  split
  · exact k
  · split
    · extract_lets s₁ s₂ s₃
      have k₁ : Made false s₀ s₁ := k.updLine
      have k₂ : Made false s₀ s₂ := by
        unfold s₂
        split
        · exact k₁.sendCharLeft
        · exact k₁.dialogueCharLeft
        · exact k₁
      have k₃ : Made false s₀ s₃ := k₂.compareSpeed
      exact takeOffered (ite (fun _ => k₃.beginCancelLine) fun _ => k₃)
    · exact k

theorem sendTick (k : Made calm s₀ s) : Made calm s₀ (sendTick c s) := by
  unfold Machine.sendTick
  split
  · extract_lets x t
    have h : Made calm s₀ t := k.updLine
    exact ite (fun _ => h.beginCancelLine) fun _ => ite (fun _ => h.beginCancelLine) fun _ => h.takeOffered
  · exact ite (fun _ => k) fun _ => k.updLine

theorem fetchBlockReadDone (k : Made calm s₀ s) : Made calm s₀ (fetchBlockReadDone s) := by
  refine onRun k fun run f h => ?_
  split at h <;> cases h
  exact ⟨nofun, nofun, fun t k => ite (fun _ => k.updSend) fun _ => k⟩

theorem fetchTextReadDone (k : Made calm s₀ s) : Made calm s₀ (fetchTextReadDone s) := by
  refine onRun k fun run f h => ?_
  split at h <;> cases h
  refine ⟨nofun, nofun, fun t k => ?_⟩
  unfold fetchTextRead
  split
  · exact ite (fun _ => k.updSend) fun _ => k
  · exact k

theorem breakOff (k : Made calm s₀ s) : Made calm s₀ (breakOff c s) :=
  ite (fun _ => cancelActive k.updLine) fun _ => returnDelivery k.updLine

theorem cancelSending (k : Made false s₀ s) : Made false s₀ (cancelSending c s) := by
  unfold Machine.cancelSending
  split
  · exact k.updSend
  · exact k.updSend
  · exact k.updSend
  · exact k.updSend
  · exact k.updSend
  · exact k.cancelActive.afterTransmission
  · exact k

theorem cancelQueued {j : SlotIdx} (k : Made calm s₀ s) : Made calm s₀ (cancelQueued r s j) := by
  unfold Machine.cancelQueued
  split
  · exact ite (fun _ => updSlot k.updQueue) fun _ => k
  · exact k

theorem cancelIfActive {j : SlotIdx} (k : Made false s₀ s) : Made false s₀ (cancelIfActive r s j) := by
  unfold Machine.cancelIfActive
  split
  · exact ite (fun _ => k.cancelSending) fun _ => k
  · exact k

theorem cancelOrder {tag : Word} (k : Made false s₀ s) : Made false s₀ (cancelOrder tag s) := by
  unfold Machine.cancelOrder
  dsimp only
  split
  · exact k.raise
  · refine ite (fun _ => ?_) fun _ => k
    exact foldl (settle (foldl (foldl k _ fun _ _ k => k.cancelQueued) _ fun _ _ k => k.cancelIfActive)) _
      fun _ _ k => k.divertEnd

/-! ### Answers and timers -/

theorem goodAnswer {t : StationIdx} (k : Made calm s₀ s) : Made calm s₀ (goodAnswer c t s) := by
  unfold Machine.goodAnswer
  extract_lets u
  have h : Made calm s₀ u := updDialogue k.stationGood
  split
  · exact updDialogue h.startTransmission
  · exact h.quietAndJudge

theorem answerChar {t : StationIdx} {ch : RxChar} (k : Made false s₀ s) :
    Made false s₀ (answerChar c t ch s) :=
  ite (fun _ => ite (fun _ => k.updDialogue) fun _ => k.failedAttempt)
    fun _ => ite (fun _ => k.goodAnswer) fun _ => k.failedAttempt

theorem receiptChar {t : StationIdx} {ch : RxChar} (k : Made false s₀ s) :
    Made false s₀ (receiptChar c t ch s) :=
  ite (fun _ => k.failedAttempt) fun _ => ite (fun _ => k.updDialogue)
    fun _ => afterTransmission (deliverActive (updDialogue k.stationGood))

theorem pollChar {t : StationIdx} {ch : RxChar} (k : Made false s₀ s) :
    Made false s₀ (pollChar c t ch s) := by
  unfold Machine.pollChar
  dsimp only
  split
  · exact ite (fun _ => k.updDialogue) fun _ => ite (fun _ => k.updDialogue) fun _ => k.failedAttempt
  · exact ite (fun _ => k.stationAnswers.quietAndJudge) fun _ => k.failedAttempt
  · exact ite (fun _ => k.failedAttempt) fun _ => ite (fun _ => k.updDialogue)
      fun _ => startMessage (updRecogniser (updDialogue k.stationAnswers))

theorem awaitedChar {value : RelayChar} {mutilated : Bool} (k : Made false s₀ s) :
    Made false s₀ (awaitedChar c value mutilated s) := by
  unfold Machine.awaitedChar
  extract_lets d shift ch t
  have h : Made false s₀ t := k.updDialogue
  split
  · exact h.answerChar
  · exact h.receiptChar
  · exact h.pollChar
  · exact h

theorem dialogueChar {value : RelayChar} {mutilated : Bool} (k : Made false s₀ s) :
    Made false s₀ (dialogueChar c value mutilated s) := by
  unfold Machine.dialogueChar
  split <;> first
    | exact k.awaitedChar
    | exact ite (fun _ => updDialogue k.recogniserChar) fun _ => k.recogniserChar
    | exact k

theorem handOn {value : RelayChar} {mutilated : Bool} (k : Made false s₀ s) :
    Made false s₀ (handOn c value mutilated s) :=
  ite (fun _ => ite (fun _ => k.dialogueChar) fun _ => k.recogniserChar) fun _ => k

theorem characterReceived {mark : Bool} (k : Made false s₀ s) : Made false s₀ (characterReceived c mark s) := by
  unfold Machine.characterReceived
  split
  · rename_i tick bits hr
    refine ite (fun _ => handOn (compareSpeed (updLine k ?_))) fun _ => k
    rw [hr]
    have e : ((s.circuit c).line.stopSample mark).receiver = .hunting := by
      simp only [LineUnit.stopSample, LineUnit.watchFraming]
      cases mark <;> simp <;> (repeat' split) <;> rfl
    rw [e]
    exact ⟨nofun, nofun⟩
  · exact k

theorem receiveSampleTick {mark : Bool} (k : Made calm s₀ s) : Made calm s₀ (receiveSampleTick c mark s) := by
  have e : ((s.circuit c).line.receiver.tick mark).1 = .stopped ↔ (s.circuit c).line.receiver = .stopped := by
    cases (s.circuit c).line.receiver <;> simp only [Receiver.tick] <;> (repeat' split) <;> simp
  have h : Made calm s₀ (s.updLine c fun l =>
      { l.takeReceiveTick mark with receiver := ((s.circuit c).line.receiver.tick mark).1 }) := k.updLine e
  exact ite (fun _ => k) fun _ => ite (fun _ => h.compareSpeed) fun _ => h

theorem openReceiveRearm (k : Made calm s₀ s) : Made calm s₀ (openReceiveRearm c s) :=
  ite (fun _ => k.updLine) fun _ => k

theorem answerTimerExpiry (k : Made false s₀ s) : Made false s₀ (answerTimerExpiry c s) := by
  unfold Machine.answerTimerExpiry
  extract_lets d t
  have h : Made false s₀ t := k.updDialogue
  refine ite (fun _ => ?_) fun _ => k
  unfold d
  split <;> first | exact h.failedAttempt | exact ite (fun _ => h.updDialogue) fun _ => h | exact h

theorem pollTimerExpiry (k : Made calm s₀ s) : Made calm s₀ (pollTimerExpiry c s) :=
  ite (fun _ => judge k.updDialogue) fun _ => k

/-! ### The circuit controller -/

theorem beginCheck (k : Made calm s₀ s) : Made calm s₀ (beginCheck c s) := updControl (updLine k)

theorem loadPollTimer (k : Made calm s₀ s) : Made calm s₀ (loadPollTimer c s) :=
  ite (fun _ => k.updDialogue) fun _ => k

theorem checkPassed (k : Made false s₀ s) : Made false s₀ (checkPassed c s) := by
  refine ite (fun h => ?_) fun _ => k
  refine judge (loadPollTimer (setModeOf k fun l => ⟨⟨nofun, fun e => ?_⟩, fun _ => rfl⟩))
  simp only [Bool.and_eq_true, decide_eq_true_eq] at h
  rw [l.1.2 e] at h
  exact nomatch h.1

theorem addFault {kind : FaultKind} {mode : FaultMode} (k : Made calm s₀ s) :
    Made calm s₀ (addFault c kind mode s) :=
  ite (fun _ => k.updControl) fun _ => raise k.updControl

theorem quietParty (k : Made calm s₀ s) : Made calm s₀ (quietParty c s) :=
  ite (fun _ => k.stopDialogue) fun _ => k

/-- What is made calmly leaves the circuit states, and which receivers are STOPPED. -/
theorem sameMode {t : State} (h : Made true s₀ t) (c : Circuit) : (s₀.circuit c).sameMode (t.circuit c) := by
  have ofEq : ∀ {s t : State}, t.circuits = s.circuits →
      (s₀.circuit c).sameMode (s.circuit c) → (s₀.circuit c).sameMode (t.circuit c) := by
    intro s t e h
    simpa only [State.circuit, e] using h
  induction h with
  | refl => exact ⟨rfl, Iff.rfl⟩
  | @circuits s d _ xs _ hc ih =>
    by_cases e : c = d
    · subst e
      rw [State.circuit_setCircuits]
      exact ⟨(hc rfl).1.trans ih.1, (hc rfl).2.trans ih.2⟩
    · rw [State.circuit_setCircuits_ne _ _ e]
      exact ih
  | report _ _ _ _ ih => exact ofEq (by simp) ih
  | consume _ v ih => exact ofEq (by unfold consumeReports; split <;> rfl) ih
  | tick _ a b n ih =>
    rw [State.circuit_timersTick]
    unfold CircuitState.sameMode CircuitState.officeTick
    rw [Controller.checkTick_keeps, (LineUnit.officeTick_keeps _ _ _ _).1]
    exact ih
  | clock _ ih =>
    rw [State.circuit_clockCycle]
    exact ih
  | _ => exact ofEq rfl ‹_›

/-- The end of a stop: the hold is cleared, and the circuit goes to RETRY_WAIT or FAULT. -/
theorem stopTail {mode : FaultMode} (k : Made false s₀ s)
    (h : (s.circuit c).lawful → (s.circuit c).line.receiver ≠ .stopped) :
    Made false s₀ (if mode = .retry
      then enterRetryWait c (s.updControl c fun k => { k with holdPending := false })
      else Machine.setMode c .fault .lineFault (s.updControl c fun k => { k with holdPending := false })) := by
  refine ite (fun _ => ?_) fun _ => ?_
  · unfold enterRetryWait
    exact setModeOf k fun l => ⟨⟨nofun, fun e => absurd e (h l)⟩, nofun⟩
  · refine setModeAfter k [_] fun l => ⟨⟨nofun, fun e => absurd e (h l)⟩, nofun⟩

/-- A detection stops a circuit that is not CLOSED. -/
theorem stopCircuit {kind : FaultKind} {mode : FaultMode} (k : Made false s₀ s)
    (h : (s.circuit c).control.state ≠ .closed) : Made false s₀ (stopCircuit c kind mode s) := by
  have q : Made true s (Machine.quietParty c (Machine.stopReception c (Machine.breakOff c
    (Machine.addFault c kind mode s)))) := refl.addFault.breakOff.stopReception.quietParty
  have m := q.sameMode c
  have k' := k.trans q.ofCalm
  refine stopTail k' fun l e => ?_
  exact h (m.1 ▸ l.1.2 e)

theorem detect {kind : FaultKind} (k : Made false s₀ s) : Made false s₀ (detect c kind s) := by
  unfold Machine.detect
  dsimp only
  split
  · exact k
  · rename_i hs
    simp only [Bool.or_eq_true, decide_eq_true_eq, not_or] at hs
    split
    · exact k
    · split
      · exact k
      · exact k.raise
      · exact ite (fun _ => k.addFault) fun _ => k.stopCircuit hs.1
      · exact ite (fun _ => k.addFault) fun _ => k.stopCircuit hs.1

theorem noLine (k : Made false s₀ s) : Made false s₀ (noLine c s) :=
  ite (fun _ => detect (updControl k)) fun _ => k

theorem openReceiveTrip (k : Made false s₀ s) : Made false s₀ (openReceiveTrip c s) :=
  ite (fun _ => detect (updLine k)) fun _ => k

theorem sendLoopOpenTrip (k : Made false s₀ s) : Made false s₀ (sendLoopOpenTrip c s) :=
  ite (fun _ => detect (updLine k)) fun _ => k

theorem framingTrip (k : Made false s₀ s) : Made false s₀ (framingTrip c s) :=
  ite (fun _ => detect (updLine k)) fun _ => k

/-- The line check's beginning, on a circuit that is not CLOSED and has no hold pending. -/
theorem startCheck {f : Controller → Controller} {cause : StateCause} (k : Made false s₀ s)
    (h : (s.circuit c).control.state ≠ .closed ∧ (s.circuit c).control.state ≠ .ready)
    (hf : ∀ x, (f x).holdPending = x.holdPending := by exact fun _ => rfl) :
    Made false s₀ (Machine.setMode c .checking cause (Machine.beginCheck c (s.updControl c f))) := by
  exact setModeOf₃ k fun l => ⟨⟨nofun, fun e => absurd (l.1.2 e) h.1⟩,
    fun e => absurd (l.2 ((hf _).symm.trans e)) h.2⟩

theorem retryTimerExpiry (k : Made false s₀ s) : Made false s₀ (retryTimerExpiry c s) := by
  refine ite (fun h => ?_) fun _ => k
  simp only [Bool.and_eq_true, decide_eq_true_eq] at h
  exact startCheck k (by rw [h.1]; exact ⟨nofun, nofun⟩)

theorem openCircuit (k : Made false s₀ s) (h : (s.circuit c).control.state = .closed) :
    Made false s₀ (openCircuit c s) := by
  refine setModeOf₃ k fun l => ⟨⟨nofun, nofun⟩, fun e => ?_⟩
  have := l.2 e
  rw [h] at this
  exact nomatch this

theorem closeCircuit (k : Made false s₀ s) : Made false s₀ (closeCircuit c s) := by
  unfold Machine.closeCircuit
  exact setModeOf k.breakOff.quietParty.stopReception fun _ => ⟨⟨fun _ => rfl, fun _ => rfl⟩, nofun⟩

theorem holdCircuit (k : Made false s₀ s)
    (h : (s.circuit c).control.state = .ready ∧ (s.circuit c).control.holdPending = false) :
    Made false s₀ (holdCircuit c s) := by
  refine ite (fun _ => k.setMode fun l => ⟨⟨nofun, fun e => ?_⟩, fun e => ?_⟩) fun _ => ?_
  · have := l.1.2 e
    rw [h.1] at this
    exact nomatch this
  · rw [h.2] at e
    exact nomatch e
  · exact k.circuit _ (fun l => ⟨l.1, fun _ => h.1⟩) nofun

theorem resumeCircuit (k : Made false s₀ s) : Made false s₀ (resumeCircuit c s) := by
  refine ite (fun h => judge (k.setMode fun l => ⟨⟨nofun, fun e => ?_⟩, fun _ => rfl⟩)) fun _ => ?_
  · have := l.1.2 e
    rw [h] at this
    exact nomatch this
  · exact judge (updControl k (hp := fun _ => nofun))

theorem divertCircuit (k : Made calm s₀ s) : Made calm s₀ (divertCircuit c s) :=
  divertEnd (upd (updControl k))

theorem resetStationOf {t : StationIdx} (k : Made calm s₀ s) : Made calm s₀ (resetStationOf c t s) :=
  ite (fun _ => k.stationAnswers) fun _ => k.stationAnswers.judgeParty

/-- A command whose checks pass is one the circuit state allows. -/
theorem allowed {cmd : CircuitCommand} {argument : BitVec 8}
    (h : s.commandRefusal c cmd argument = none) : (s.circuit c).control.allows cmd = true := by
  unfold State.commandRefusal at h
  cases hn : (s.circuit c).control.allows cmd with
  | true => rfl
  | false =>
    simp only [hn] at h
    split at h <;> simp at h

theorem actOn {cmd : CircuitCommand} {argument : BitVec 8} (k : Made false s₀ s)
    (h : s.commandRefusal c cmd argument = none) : Made false s₀ (actOn c cmd argument s) := by
  have a := allowed h
  unfold Machine.actOn
  split
  · exact k.openCircuit (by simpa [Controller.allows] using a)
  · exact k.closeCircuit
  · exact k.holdCircuit (by simpa [Controller.allows] using a)
  · exact k.resumeCircuit
  · refine startCheck k ?_
    simp only [Controller.allows, Bool.or_eq_true, decide_eq_true_eq] at a
    rcases a with a | a <;> rw [a] <;> exact ⟨nofun, nofun⟩
  · exact k.divertCircuit
  · split
    · exact k.resetStationOf
    · exact k

theorem circuitOrder {code argument : BitVec 8} (k : Made false s₀ s) :
    Made false s₀ (circuitOrder c code argument s) := by
  unfold Machine.circuitOrder
  split
  · exact k
  · split
    · exact k.raise
    · split
      · exact k.raise
      · exact k.actOn ‹_›

/-! ### The store path -/

theorem shadowEvent {o : Nat} (k : Made calm s₀ s) : Made calm s₀ (shadowEvent o s) :=
  ite (fun _ => k.judgeSuspension) fun _ => ite (fun _ => compareAtRest (updLine k)) fun _ => k

theorem takeOrder {word : OrderWord} {v : Word} (k : Made false s₀ s) : Made false s₀ (takeOrder word v s) := by
  unfold Machine.takeOrder
  split
  · exact k.postOrder
  · exact k.giveOrder
  · exact k.releaseOrder
  · exact k.cancelOrder
  · exact k.consume _
  · exact (k.pendingClear _).circuitOrder

theorem passWrite {a : Address} {v : Word} (k : Made calm s₀ s) (h : s.arbiter.reporting = false) :
    Made calm s₀ (passWrite a v s) := (k.store a v).port _ h.symm

theorem trapWrite {o : Nat} (k : Made calm s₀ s) (h : s.arbiter.reporting = false) :
    Made calm s₀ (trapWrite o s) := (k.port .free h.symm).raise

theorem judgeWrite {a : Address} {v : Word} (k : Made false s₀ s) (h : s.arbiter.reporting = false) :
    Made false s₀ (judgeWrite a v s) := by
  unfold Machine.judgeWrite
  split
  · split
    · exact k.passWrite h
    · exact k.trapWrite h
    · exact ite (fun _ => k.passWrite h) fun _ => k.trapWrite h
    · exact ((k.passWrite h).shadow _ _).shadowEvent
    · exact (k.passWrite h).takeOrder
  · exact k.passWrite h

theorem grantCycle {cycle : PortCycle} (k : Made false s₀ s) (h : s.arbiter.reporting = false) :
    Made false s₀ (grantCycle cycle s) := by
  unfold Machine.grantCycle
  split
  · rename_i a
    exact (k.readData (some (s.processorRead a))).port (.granted .passage 0) h.symm
  · exact k.judgeWrite h

theorem grantWaiting (k : Made false s₀ s) : Made false s₀ (grantWaiting s) := by
  unfold Machine.grantWaiting
  split
  · exact k
  · exact ite (fun h => (k.waiting _).grantCycle (Arbiter.reporting_of_open (State.open_of_grantee h))) fun _ => k

theorem presentCycle {cycle : PortCycle} (k : Made false s₀ s) : Made false s₀ (presentCycle cycle s) := by
  unfold Machine.presentCycle
  dsimp only
  split
  · exact k.grantWaiting
  · exact ite (fun h => k.grantWaiting.grantCycle (Arbiter.reporting_of_open (State.open_of_grantee h)))
      fun _ => k.grantWaiting.waiting _

theorem presentWrite {a : Address} {v : Word} (k : Made false s₀ s) : Made false s₀ (presentWrite a v s) :=
  k.presentCycle

theorem presentRead {a : Address} (k : Made false s₀ s) : Made false s₀ (presentRead a s) := k.presentCycle

theorem presentAt {o : Nat} {v : Word} (k : Made false s₀ s) : Made false s₀ (presentAt o v s) :=
  k.presentWrite

theorem presentCommand {code argument : BitVec 8} (k : Made false s₀ s) :
    Made false s₀ (presentCommand c code argument s) := k.presentAt

theorem commandClearWrite (k : Made calm s₀ s) : Made calm s₀ (commandClearWrite s) := by
  unfold Machine.commandClearWrite
  split
  · exact ite (fun h => (k.passWrite (Arbiter.reporting_of_open (State.open_of_grantee h))).pendingClear _)
      fun _ => k
  · exact k

theorem runCycle {run : Run} {made : Nat} (k : Made calm s₀ s) (h : s.arbiter = .granted run made) :
    Made calm s₀ (runCycle run made s) := by
  refine ite (fun _ => k.makeWrites.port _ ?_) fun _ => k
  rw [makeWrites_eq]
  simp only [h]
  cases run <;> rfl

/-- A grant that the arbiter makes while no command waits is made of changes through the accessors, and of a member's
leaving its dirty set where it goes to the mirror writer. -/
theorem makeGrant (k : Made false s₀ s) : ∃ t, Made false s₀ t ∧
    (Machine.makeGrant s = t ∨ ∃ m, Machine.makeGrant s = t.mirrorLeave m) := by
  unfold Machine.makeGrant
  split
  · exact ⟨_, k.grantWaiting, .inl rfl⟩
  · exact ⟨_, k, .inl rfl⟩
  · rename_i run hr hn
    have p : Made false s₀ { s with arbiter := .granted run 0 } := k.port _
      ((reporting_granted 0 hr).trans
        (Arbiter.reporting_of_open (State.open_of_nextRun hn)).symm)
    cases run with
    | report => exact absurd rfl hr
    | mirror m ws => exact ⟨_, p, .inr ⟨m, rfl⟩⟩
    | fetchBlock c f => exact ⟨_, p.fetchLast c, .inl rfl⟩
    | fetchText c f => exact ⟨_, p.fetchLast c, .inl rfl⟩
    | _ => exact ⟨_, p, .inl rfl⟩

/-- An idle step is made in the same way. -/
theorem idleCycle (k : Made false s₀ s) : ∃ t, Made false s₀ t ∧
    (Machine.idleCycle s = t ∨ ∃ m, Machine.idleCycle s = t.mirrorLeave m) := by
  have k' : Made false s₀ (clockCycle s) := k.clock
  unfold Machine.idleCycle portCycle
  split
  · exact k'.makeGrant
  · rename_i h
    exact (k'.port .free (by rw [h]; rfl)).makeGrant
  · rename_i h
    exact ⟨_, k'.runCycle h, .inl rfl⟩

/-! ### What every change through the accessors keeps -/

theorem pending_eq {t : State} (h : Made calm s₀ t) : t.pending = s₀.pending := by
  induction h with
  | circuits _ xs _ _ ih => rw [State.setCircuits_eq]; exact ih
  | report _ _ _ _ ih => exact (State.raise_pending _ _ _ _).trans ih
  | consume _ v ih => exact Eq.trans (by unfold consumeReports; split <;> rfl) ih
  | refl => rfl
  | _ => assumption

theorem reporting_eq {t : State} (h : Made calm s₀ t) : t.arbiter.reporting = s₀.arbiter.reporting := by
  induction h with
  | circuits _ xs _ _ ih => rw [State.setCircuits_eq]; exact ih
  | report _ _ _ _ ih => exact (congrArg _ (State.raise_arbiter _ _ _ _)).trans ih
  | consume _ v ih => exact Eq.trans (by unfold consumeReports; split <;> rfl) ih
  | port _ a h ih => exact h.trans ih
  | refl => rfl
  | _ => assumption

theorem mapsLawful {t : State} (h : Made calm s₀ t) (l : s₀.mapsLawful) : t.mapsLawful := by
  induction h with
  | circuits _ xs _ _ ih => rw [State.setCircuits_eq]; exact ih
  | report _ _ _ _ ih => simpa [State.mapsLawful] using ih
  | consume _ v ih => unfold consumeReports; split <;> exact ih
  | store _ a v ih => exact State.mapsLawful_writeStore _ a v ih
  | shadow _ o v ih => exact State.mapsLawful_setShadow _ o v ih
  | owner _ b o ih => exact State.mapsLawful_setOwner _ b o ih
  | rehome _ r o ih => exact State.mapsLawful_rehome _ r o ih
  | refl => exact l
  | _ => assumption

theorem reportsLawful {t : State} (h : Made calm s₀ t) (l : s₀.reportsLawful) : t.reportsLawful := by
  induction h with
  | circuits _ xs _ _ ih => rw [State.setCircuits_eq]; exact ih
  | report _ _ _ _ ih => exact State.reportsLawful_raise _ _ _ _ ih
  | consume _ v ih => exact State.reportsLawful_consume v ih
  | port _ a h ih => exact ⟨ih.1, ih.2.1.trans h.symm, fun e => ih.2.2 (h.symm.trans e)⟩
  | refl => exact l
  | _ => assumption

theorem circuitsLawful {t : State} (h : Made calm s₀ t) (l : s₀.circuitsLawful) : t.circuitsLawful := by
  have ofEq : ∀ {s t : State}, t.circuits = s.circuits → s.circuitsLawful → t.circuitsLawful := by
    intro s t e h c
    simpa only [State.circuit, e] using h c
  induction h with
  | @circuits s d _ xs h _ ih =>
    intro c
    by_cases e : c = d
    · rw [e, State.circuit_setCircuits]
      exact h (ih d)
    · rw [State.circuit_setCircuits_ne _ _ e]
      exact ih c
  | report _ _ _ _ ih => exact ofEq (by simp) ih
  | consume _ v ih => exact ofEq (by unfold consumeReports; split <;> rfl) ih
  | tick _ a b n ih =>
    intro c
    rw [State.circuit_timersTick]
    exact CircuitState.officeTick_lawful _ _ _ (ih c)
  | clock _ ih =>
    intro c
    rw [State.circuit_clockCycle]
    exact ih c
  | refl => exact l
  | _ => exact ofEq rfl ‹_›

theorem lost_le {t : State} (h : Made calm s₀ t) (l : s₀.reports.lost ≤ 65535) : t.reports.lost ≤ 65535 := by
  induction h with
  | circuits _ xs _ _ ih => rw [State.setCircuits_eq]; exact ih
  | report _ _ _ _ ih =>
    unfold State.raise
    split
    · exact ih
    · exact Nat.min_le_right _ _
  | consume _ v ih => unfold consumeReports; split <;> exact ih
  | refl => exact l
  | _ => assumption

/-- A change through the accessors marks what it changes (R179). -/
theorem marksChanges {t : State} (h : Made calm s₀ t) (l : s₀.reports.lost ≤ 65535) : s₀.marksChanges t := by
  have same : ∀ {s t : State}, t.circuits = s.circuits → t.messages = s.messages →
      t.circuitDirty = s.circuitDirty → t.messageDirty = s.messageDirty → t.officeDirty = s.officeDirty →
      t.officeWords.drop 1 = s.officeWords.drop 1 → s₀.marksChanges s → s₀.marksChanges t := by
    intro s t hc hm hd hr ho hw k
    exact State.marksChanges_trans k (State.marksChanges_of (fun c => by simp [State.circuit, hc]) hm hd hr
      fun e => by rw [ho]; exact e.resolve_right fun k => k hw)
  induction h with
  | refl => exact s₀.marksChanges_refl
  | circuits _ xs _ _ ih => exact State.marksChanges_trans ih (State.marksChanges_setCircuits _ _ _)
  | message _ r m ih => exact State.marksChanges_trans ih (State.marksChanges_setMessage _ r m)
  | report k p g e ih => exact State.marksChanges_trans ih (State.marksChanges_raise _ p g e (k.lost_le l))
  | setPool _ p ih => exact State.marksChanges_trans ih (State.marksChanges_setPool _ p)
  | setPost _ w o ih => exact State.marksChanges_trans ih (State.marksChanges_setPost _ w o)
  | @pool s _ p hc hg ih =>
    refine same (s := s) rfl rfl rfl rfl rfl ?_ ih
    simp only [State.officeWords, hc, hg]
    rfl
  | @walk s _ w hw ih =>
    refine same (s := s) rfl rfl rfl rfl rfl ?_ ih
    simp only [State.officeWords, hw]
    rfl
  | consume _ v ih =>
    unfold consumeReports
    split
    · exact same rfl rfl rfl rfl rfl rfl ih
    · exact ih
  | minute _ v ih =>
    exact State.marksChanges_trans ih (State.marksChanges_of (fun _ => rfl) rfl rfl rfl fun _ => rfl)
  | tick _ a b n ih =>
    exact State.marksChanges_trans ih (State.marksChanges_of
      (fun c => by rw [State.circuit_timersTick, CircuitState.officeTick_shown]) rfl rfl rfl
      fun e => e.resolve_right fun k => k rfl)
  | clock _ ih =>
    exact State.marksChanges_trans ih (State.marksChanges_of
      (fun c => by rw [State.circuit_clockCycle]; rfl) rfl rfl rfl fun e => e.resolve_right fun k => k rfl)
  | _ => exact same rfl rfl rfl rfl rfl rfl ‹_›

/-! ### The commands -/

/-- Every command but a reset, a report run's two and MIRROR_RUN is made of changes through the accessors. -/
theorem ofExec (i : Instr) (s : State) (hp : ∀ p, i ≠ .powerOn p) (hr : ∀ p, i ≠ .relayReset p)
    (hs : i ≠ .reportWriteStart) (hd : i ≠ .reportWriteDone) (hm : i ≠ .mirrorRun) :
    ∃ t, exec i s = .next t ∧ Made false s t := by
  cases i with
  | powerOn _ => exact absurd rfl (hp _)
  | relayReset _ => exact absurd rfl (hr _)
  | officeTick _ _ => exact ⟨_, rfl, refl.officeTick⟩
  | minuteTick => exact ⟨_, rfl, refl.minuteTickEvent⟩
  | characterReceived _ _ => exact ⟨_, rfl, refl.characterReceived⟩
  | characterBoundary _ => exact ⟨_, rfl, refl.characterBoundary⟩
  | openReceiveTrip _ => exact ⟨_, rfl, refl.openReceiveTrip⟩
  | openReceiveRearm _ => exact ⟨_, rfl, refl.openReceiveRearm⟩
  | sendLoopOpenTrip _ => exact ⟨_, rfl, refl.sendLoopOpenTrip⟩
  | framingTrip _ => exact ⟨_, rfl, refl.framingTrip⟩
  | silenceExpiry _ => exact ⟨_, rfl, refl.silenceExpiry⟩
  | textCharacterTaken => exact ⟨_, rfl, refl.textCharacterTaken⟩
  | blockWriteDone => exact ⟨_, rfl, refl.blockWriteDone⟩
  | takeComplete => exact ⟨_, rfl, refl.takeComplete⟩
  | endingReached => exact ⟨_, rfl, refl.endingReached⟩
  | returnWriteDone => exact ⟨_, rfl, refl.returnWriteDone⟩
  | postTrigger _ => exact ⟨_, rfl, refl.presentAt⟩
  | walkReadDone => exact ⟨_, rfl, refl.walkReadDone⟩
  | walkEndWriteDone => exact ⟨_, rfl, refl.walkEndWriteDone⟩
  | releaseOrder _ => exact ⟨_, rfl, refl.presentAt⟩
  | cancelOrder _ => exact ⟨_, rfl, refl.presentAt⟩
  | giveOrder _ => exact ⟨_, rfl, refl.presentAt⟩
  | giveStep => exact ⟨_, rfl, refl.giveStep⟩
  | poolReserveWrite _ => exact ⟨_, rfl, refl.presentAt⟩
  | speedSettingWrite _ _ => exact ⟨_, rfl, refl.presentAt⟩
  | processorWrite _ _ => exact ⟨_, rfl, refl.presentWrite⟩
  | consumeOrder _ => exact ⟨_, rfl, refl.presentAt⟩
  | reportWriteStart => exact absurd rfl hs
  | reportWriteDone => exact absurd rfl hd
  | mirrorRun => exact absurd rfl hm
  | commandClearWrite => exact ⟨_, rfl, refl.commandClearWrite⟩
  | noCommand _ _ => exact ⟨_, rfl, refl.presentCommand⟩
  | commandUnknown _ _ _ => exact ⟨_, rfl, refl.presentCommand⟩
  | openCommand _ _ => exact ⟨_, rfl, refl.presentCommand⟩
  | closeCommand _ _ => exact ⟨_, rfl, refl.presentCommand⟩
  | holdCommand _ _ => exact ⟨_, rfl, refl.presentCommand⟩
  | resumeCommand _ _ => exact ⟨_, rfl, refl.presentCommand⟩
  | clearFaultCommand _ _ => exact ⟨_, rfl, refl.presentCommand⟩
  | divertCommand _ _ => exact ⟨_, rfl, refl.presentCommand⟩
  | stationResetCommand _ _ => exact ⟨_, rfl, refl.presentCommand⟩
  | checkPassed _ => exact ⟨_, rfl, refl.checkPassed⟩
  | noLine _ => exact ⟨_, rfl, refl.noLine⟩
  | retryTimerExpiry _ => exact ⟨_, rfl, refl.retryTimerExpiry⟩
  | fetchBlockReadDone => exact ⟨_, rfl, refl.fetchBlockReadDone⟩
  | fetchTextReadDone => exact ⟨_, rfl, refl.fetchTextReadDone⟩
  | answerTimerExpiry _ => exact ⟨_, rfl, refl.answerTimerExpiry⟩
  | pollTimerExpiry _ => exact ⟨_, rfl, refl.pollTimerExpiry⟩
  | divertStep _ => exact ⟨_, rfl, refl.divertStep⟩
  | receiveSampleTick _ _ => exact ⟨_, rfl, refl.receiveSampleTick⟩
  | sendTick _ => exact ⟨_, rfl, refl.sendTick⟩

end Made

end Sys2Proof.Machine
end

