-- ==== Sys2Proof/WellFormed.lean ====
section
/-! DEFINITION. Which commands are written as their row of the table says. -/

namespace Sys2Proof

/-- A command is well formed unless it is a COMMAND_UNKNOWN whose code is one of the known codes 0 to 7
(R141). Every other operand is of a type that holds exactly the values the spec allows. -/
def Instr.wellFormed : Instr → Bool
  | .commandUnknown _ code _ => decide (8 ≤ code.toNat)
  | _ => true

end Sys2Proof
end

