-- ==== Sys2Proof/Tests/Slice0.lean ====
section
/-! SUPPORT. Tests: the well-formedness smoke, one step of each command checked against a value worked out from the
manual, and for each statement with hypotheses a concrete state that meets them (`witness_…`). -/

namespace Sys2Proof.Tests

open Sys2Proof Sys2Proof.Machine

set_option Elab.async false

/-! ### Small states -/

/-- The state a command leaves. -/
def after (i : Instr) (s : State) : State :=
  match exec i s with
  | .next t => t
  | _ => s

/-- A state with circuit 3 as given. -/
def put (x : CircuitState) (s : State := State.reset) : State := { s with circuits := s.circuits.set 3 x }

/-- A state with record 5 as given. -/
def rec5 (m : Message) (s : State := State.reset) : State := { s with messages := s.messages.set 5 m }

/-- A state with word `w` of circuit 3's settings written. -/
def setting3 (w : Nat) (v : Word) (s : State := State.reset) : State := s.setShadow (offCircuit 3 w) v

/-- Circuit 3 after the switch processor opened it as a circuit of a kind, in the state given. -/
def opened (kind : Kind) (state : CircuitMode) : CircuitState :=
  { CircuitState.reset with
    line := { LineUnit.reset with receiver := .hunting }
    control := { Controller.reset with state := state, effective := { Effective.reset with kind := kind } } }

def ready : CircuitState := opened .point .ready

/-- A point circuit whose receiver has reached the stop sample of a character. -/
def arriving (bits : RelayChar) (f : Recogniser → Recogniser) : CircuitState :=
  { ready with
    line := { ready.line with receiver := .assembling 95 bits }
    recogniser := f ready.recogniser }

/-- A FILLING record. -/
def filling : Message :=
  { Message.free 2 with state := .filling, origin := some (.circuit 3 none), hold := true, textLength := 9 }

/-- A point circuit receiving the text of record 5. -/
def inText (x : Recogniser) : Recogniser :=
  { x with state := .text, lineStart := false, filling := some 5, silence := some 40 }

/-- A ROUTED record with one QUEUED delivery for circuit 3: 4 characters of text in block 10. -/
def delivery0 : Delivery :=
  { state := .queued, circuit := 3, station := 0, codes := 1, attempts := 0, saved := none }

def routed : Message :=
  { Message.free 2 with
    state := .routed, precedence := some .r, origin := some (.circuit 1 none), originCode := some ⟨6, 7⟩
    destinations := [.code ⟨8, 9⟩], textLength := 4, head := some 10, tail := some 10, blockCount := 1
    receiptMinute := some 0, hold := true, slots := (Vector.replicate 8 none).set 0 (some delivery0) }

/-- Record 5 waiting on circuit 3: 4 + 3 + 29 characters. -/
def queuedR : CircuitState := { ready with queues := { Queues.empty with r := ⟨[⟨5, 0, 36⟩], 36⟩ } }

/-- Record 5 being sent on circuit 3. -/
def routedActive : Message :=
  { routed with slots := (Vector.replicate 8 none).set 0 (some { delivery0 with state := .active }) }

/-- Circuit 3 at the end of a character of the phase given. -/
def sending (phase : Phase) (position remaining : Nat) : CircuitState :=
  { ready with
    line := { ready.line with transmitter := .sending 6 111 112 (some .sendController) }
    send := { SendController.none with
      active := some (5, 0), phase := phase, position := position, remaining := remaining, channel := some 7 } }

/-- A party circuit whose station 2 is present, poll enabled and ANSWERING, with call letters A, B. -/
def station2 : Station := { Station.reset with present := true, pollEnable := true, second := 7 }

def party (d : Dialogue → Dialogue) : CircuitState :=
  { opened .party .ready with
    dialogue := d Dialogue.reset, stations := (Vector.replicate 8 Station.reset).set 2 station2 }

/-- A report that waits. -/
def aReport : Report := { place := .office, tag := 77, kind := .overdue, minute := 3 }

/-- A report run holds the M-port. -/
def inRun (s : State := State.reset) : State :=
  { s with arbiter := .granted .report 0, reports := { s.reports with inRun := some aReport } }

/-- The mirror writer's dirty sets and mark. -/
def dirty (m : Vector Bool 128) (c : Vector Bool 32) (o : Bool) : State :=
  { State.reset with messageDirty := m, circuitDirty := c, officeDirty := o }

/-- Nothing is dirty. -/
def clean : State := dirty (Vector.replicate 128 false) (Vector.replicate 32 false) false

theorem holds_of_all {α : Type} {o : Option α} {p : α → Prop} [DecidablePred p]
    (h : (o.all fun d => decide (p d)) = true) : ∀ d, o = some d → p d := by
  rintro d rfl; simpa using h

/-! ### Well-formedness -/

theorem test_unknown_code_refused : (Instr.commandUnknown 3 7 0).wellFormed = false := by decide

theorem test_unknown_code_accepted : (Instr.commandUnknown 3 8 0).wellFormed = true := by decide

theorem test_every_other_command_well_formed :
    (Instr.processorWrite 0xFFFFF 0xFFFF).wellFormed = true ∧ Instr.minuteTick.wellFormed = true := by decide

/-! ### One step of each command -/

/-- R162: the strap value sampled at the end of the reset places the relay area (R158). -/
theorem test_power_on : (after (.powerOn 5) (inRun (put ready))).strap = 5 ∧
    (after (.powerOn 5) (inRun (put ready))).arbiter = .free := by decide +kernel

/-- R45: a relay reset raises the generation of a record that was in use. -/
theorem test_relay_reset : ((after (.relayReset 0) (rec5 routed)).message 5).generation = 3 ∧
    ((after (.relayReset 0) (rec5 routed)).message 5).state = .free := by decide +kernel

/-- R15: mark without current counts towards an open loop. -/
theorem test_office_tick : ((after (.officeTick 0 0) (put ready)).circuit 3).line.loopCount = 1 := by
  decide +kernel

/-- R58: 5 minutes old at a limit of 5 for R, the high byte (section 11.1). -/
theorem test_minute_tick :
    (after .minuteTick ({ rec5 routed with minute := 4, tickCount := 5999 }.setShadow 3 0x500)).reports.pending =
      [⟨.office, 261, .overdue, 5⟩] := by decide +kernel

/-- R182: the office tick at 5999 is the minute tick. -/
theorem test_office_tick_wraps :
    (after (.officeTick 0 0) { State.reset with tickCount := 5999 }).minute = 1 ∧
    (after (.officeTick 0 0) { State.reset with tickCount := 5999 }).tickCount = 0 := by decide +kernel

/-- R5, R6: a space stop sample is a framing error, and the character becomes BLANK in the text. -/
theorem test_character_received :
    ((after (.characterReceived 3 false) (rec5 filling (put (arriving 9 inText)))).circuit 3).textFifo =
      [.char 0 5] := by decide +kernel

/-- R116: the remaining count falls by one at each character's report. -/
theorem test_character_boundary :
    ((after (.characterBoundary 3) (rec5 routedActive (put (sending .heading 0 36)))).circuit 3).send.remaining =
      35 := by decide +kernel

/-- R14, R152: under REPORT the circuit state stays. -/
theorem test_open_receive_trip :
    (after (.openReceiveTrip 3) (setting3 0 0x20
      (put { ready with line := { ready.line with openCount := 5 } }))).reports.pending =
      [⟨.circuit 3 none, 0, .lineFault .openReceive .report, 0⟩] := by decide +kernel

theorem test_open_receive_rearm :
    ((after (.openReceiveRearm 3) (put { ready with line :=
      { ready.line with openDetector := .tripped, openMarkRun := 16 } })).circuit 3).line.openDetector =
      .armed := by decide +kernel

/-- R152: LATCHED stops the circuit. -/
theorem test_send_loop_open_trip :
    ((after (.sendLoopOpenTrip 3) (put { ready with line :=
      { ready.line with loopCount := 10 } })).circuit 3).control.state = .fault := by decide +kernel

/-- R154: the second retry time is 15 s. -/
theorem test_framing_trip :
    ((after (.framingTrip 3) (setting3 0 0x50 (put { ready with line :=
      { ready.line with framingCount := 4 } }))).circuit 3).control.retryTimer = some 1500 := by decide +kernel

theorem test_silence_expiry :
    ((after (.silenceExpiry 3) (rec5 filling (put { ready with recogniser :=
      { inText ready.recogniser with silence := some 0 } }))).circuit 3).textFifo =
      [.ending 5 .silence] := by decide +kernel

/-- R39: the second character of a pair completes a word: 7 in the high byte, 6 in the low. -/
theorem test_text_character_taken :
    (after .textCharacterTaken
      { put { ready with textFifo := [.char 7 5] } with
        fills := State.reset.fills.set 5 ⟨some 10, 3, some 6, false⟩ }).writer.writes =
      [⟨0x4000 + 320 + 3, 0x0706, .leave 3 5⟩] := by decide +kernel

theorem test_block_write_done :
    (after .blockWriteDone { State.reset with writer :=
      { BlockWriter.reset with writes := [⟨0x4142, 0x0706, .nothing⟩] } }).store = [(0x4142, 0x0706)] := by
  decide +kernel

/-- R72: the pool head becomes the message's, and its link the new head. -/
theorem test_take_complete :
    (after .takeComplete { rec5 filling with
      pool := { Pool.reset with head := some 10, tail := some 11, count := 2, take := some 5 }
      store := [(0x4140, 11)] }).pool.head = some 11 := by decide +kernel

/-- R42: the count word, then the link 0xFFFF. -/
theorem test_ending_reached :
    (after .endingReached
      { put { ready with textFifo := [.ending 5 .eom] } with
        fills := State.reset.fills.set 5 ⟨some 10, 4, none, false⟩ }).writer.writes =
      [⟨0x4141, 4, .nothing⟩, ⟨0x4140, 0xFFFF, .letGo 5 .eom⟩] := by decide +kernel

theorem test_return_write_done :
    (after .returnWriteDone { State.reset with pool :=
      { Pool.reset with head := some 10, tail := some 20, count := 2, returns := [(10, 20)] } }).store =
      [(0x4140, 20)] := by decide +kernel

/-- R59: no code in the post record. -/
theorem test_post_trigger :
    (after (.postTrigger 1) State.reset).postOutcome = .badCodes := by decide +kernel

/-- A walk over one block. -/
def walking (ending : Bool) : State :=
  { rec5 { Message.free 2 with
      state := .posting, origin := some .posted, hold := true, precedence := some .s
      originCode := some ⟨6, 7⟩, destinations := [.code ⟨8, 9⟩]
      flags := { MessageFlags.clear with posted := true } } with
    walk := some { record := 5, head := 10, wanted := 1, taken := 0, sum := 0, block := 10, ending := ending }
    store := [(0x4141, 12)] }

/-- R61: the block is the record's, and its count joins the sum. -/
theorem test_walk_read_done :
    (after .walkReadDone (walking false)).owner 10 = .message 5 ∧
    (after .walkReadDone (walking false)).walk.map (fun w => (w.sum, w.ending)) = some (12, true) := by
  decide +kernel

/-- R62, R89: with no route assigned, every code goes to intercept, and the record is DONE. -/
theorem test_walk_end_write_done :
    ((after .walkEndWriteDone (walking true)).message 5).interceptSet = 1 ∧
    ((after .walkEndWriteDone (walking true)).message 5).state = .done := by decide +kernel

/-- R52, R53: a released DONE record is freed under the next generation. -/
theorem test_release_order :
    ((after (.releaseOrder 261) (rec5 { routed with
      state := .done, slots := Vector.replicate 8 none })).message 5) = Message.free 3 := by decide +kernel

/-- R54: the queued delivery leaves its queue. -/
theorem test_cancel_order :
    ((after (.cancelOrder 261) (rec5 routed (put queuedR))).queue 3 .r).entries = [] := by decide +kernel

theorem test_give_order :
    (after (.giveOrder 9) (State.reset.setShadow 0x2D 3580)).pool.give = some ⟨3580, 3584, 0, 0⟩ := by
  decide +kernel

/-- R70: the first block given is the head and the tail. -/
theorem test_give_step :
    (after .giveStep { State.reset with pool :=
      { Pool.reset with give := some ⟨7, 9, 0, 0⟩ } }).pool.head = some 7 := by decide +kernel

/-- R77, third case: the build's run has started when the take of the last block is asked, so its block joins the
pool. -/
theorem test_give_step_in_progress :
    (after .giveStep { State.reset with
      arbiter := .granted .give 1
      pool := { Pool.reset with
        head := some 9, tail := some 9, count := 1, take := some 5, give := some ⟨7, 9, 0, 0⟩ } }).pool.count = 2 := by
  decide +kernel

/-- R76: 128 records FREE, an empty pool and a reserve of 1. -/
theorem test_pool_reserve_write : (after (.poolReserveWrite 1) State.reset).pool.suspension = true := by
  decide +kernel

theorem test_speed_setting_write :
    ((after (.speedSettingWrite 3 0x24) (put ready)).circuit 3).line.rxSpeed = 4 := by decide +kernel

/-- R165, R166: the office status is part-written. -/
theorem test_processor_write_trapped :
    (after (.processorWrite 0x10 9) State.reset).reports.pending =
      [⟨.office, 0, .writeTrap 0x10, 0⟩] := by decide +kernel

theorem test_processor_write_outside :
    (after (.processorWrite 0x20010 9) State.reset).store = [(0x20010, 9)] := by decide +kernel

/-- R157, R171: a read waits while a report run holds the M-port, and is handed the store word at its grant. -/
theorem test_read_waits :
    (presentRead 5 inRun).waiting = some (.read 5) ∧
    (presentRead 5 { State.reset with store := [(5, 6)] }).readData = some 6 := by decide +kernel

theorem test_consume_order :
    (after (.consumeOrder 2) { State.reset with reports :=
      { ReportWriter.reset with produce := 2, attention := true } }).reports.attention = false := by
  decide +kernel

/-- R167, R175: the run of five cycles holds the M-port. -/
theorem test_report_write_start :
    (after .reportWriteStart { State.reset with reports :=
      { ReportWriter.reset with pending := [aReport] } }).arbiter = .granted .report 0 := by
  decide +kernel

/-- Section 11.6: kind 12 in bits 15 to 11, the office in bit 9. -/
theorem test_report_write_done :
    (after .reportWriteDone (inRun)).store =
      [(0x10, 1), (0x1000, 0x6200), (0x1001, 77), (0x1003, 3)] := by decide +kernel

/-- Section 11.7: the directory record of record 0 shows its tag, generation 1. -/
theorem test_mirror_run : (after .mirrorRun State.reset).readStore 0x2000 = 128 := by decide +kernel

theorem test_command_clear_write :
    (after .commandClearWrite { State.reset with
      pendingClear := (Vector.replicate 32 false).set 3 true, store := [(0x470, 1)] }).store = [] := by
  decide +kernel

theorem test_no_command :
    (after (.noCommand 3 9) State.reset).store = [(0x470, 0x900)] ∧
    (after (.noCommand 3 9) State.reset).reports = .reset := by decide +kernel

theorem test_command_unknown :
    (after (.commandUnknown 3 200 0) State.reset).reports.pending =
      [⟨.circuit 3 none, 0, .commandRefused .unknown 200, 0⟩] := by decide +kernel

theorem test_open_command :
    ((after (.openCommand 3 0) (setting3 0 1)).circuit 3).control.state = .checking := by decide +kernel

theorem test_close_command :
    ((after (.closeCommand 3 0) (put ready)).circuit 3).line.receiver = .stopped := by decide +kernel

theorem test_hold_command :
    ((after (.holdCommand 3 0) (put ready)).circuit 3).control.state = .held := by decide +kernel

/-- R148, R100: the resumed circuit starts the delivery that waits. -/
theorem test_resume_command :
    ((after (.resumeCommand 3 0) (rec5 routed (put
      { queuedR with control := { ready.control with state := .held } }))).circuit 3).send.remaining = 36 := by
  decide +kernel

theorem test_clear_fault_command :
    ((after (.clearFaultCommand 3 0) (put (opened .point .fault))).circuit 3).control.state = .checking := by
  decide +kernel

theorem test_divert_command :
    ((after (.divertCommand 3 0) (put { queuedR with control :=
      { ready.control with state := .held } })).circuit 3).control.diverting = true := by decide +kernel

theorem test_station_reset_command :
    ((after (.stationResetCommand 3 2) (put { party id with
      stations := (Vector.replicate 8 Station.reset).set 2
        { station2 with answering := false, failures := 3 } })).station 3 2).answering = true := by
  decide +kernel

theorem test_check_passed :
    ((after (.checkPassed 3) (put { opened .point .checking with control :=
      { (opened .point .checking).control with markRun := 100 } })).circuit 3).control.state = .ready := by
  decide +kernel

/-- R145, R153: NO_LINE under LATCHED. -/
theorem test_no_line :
    ((after (.noLine 3) (put { opened .point .checking with control :=
      { (opened .point .checking).control with checkCount := 1000 } })).circuit 3).control.faults.noLine =
      true := by decide +kernel

/-- R145: a line check whose NO_LINE is due does not pass at one more office tick. -/
theorem test_line_check_stands :
    ((after (.officeTick 8 8) (put { opened .point .checking with control :=
      { (opened .point .checking).control with checkCount := 1000, markRun := 99 } })).circuit 3).control.markRun =
      99 := by decide +kernel

theorem test_retry_timer_expiry :
    ((after (.retryTimerExpiry 3) (put { opened .point .retryWait with control :=
      { (opened .point .retryWait).control with retryTimer := some 0, retryCount := 4 } })).circuit
        3).control.retryCount = 4 := by decide +kernel

/-- A text fetch of record 5 at block 10, in the store with count 3 and the text words of 6, 7 and 8. -/
def fetching (run : Option BlockFetch) : State :=
  { rec5 routedActive (put { ready with send := { (sending .text 0 20).send with
      fetch := some { block := 10, toFetch := 3, run := run } } }) with
    store := [(0x4140, 0xFFFF), (0x4141, 3), (0x4142, 0x0706), (0x4143, 8)] }

theorem test_fetch_block_read_done :
    ((after .fetchBlockReadDone (fetching none)).circuit 3).send.fetch =
      some ⟨10, 3, some ⟨3, 0, 0xFFFF⟩⟩ := by decide +kernel

theorem test_fetch_text_read_done :
    ((after .fetchTextReadDone (fetching (some ⟨3, 0, 0xFFFF⟩))).circuit 3).send.fifo = [6, 7] := by
  decide +kernel

/-- R157, R168: a write that waits goes before a fetch when the run that held the M-port has ended. -/
theorem test_waiting_write_goes_first :
    ((after .fetchBlockReadDone { State.reset with waiting := some (.write 5 6) }).nextRun).isNone ∧
    (match step { State.reset with waiting := some (.write 5 6) } with
      | .next t => decide (t.store = [(5, 6)])
      | _ => false) = true := by decide +kernel

/-- R128: a failed attempt. -/
theorem test_answer_timer_expiry :
    ((after (.answerTimerExpiry 3) (put (party fun d =>
      { d with state := .answerWait, selected := some 2, answerTimer := some 0 }))).station 3 2).failures =
      1 := by decide +kernel

/-- R121, R123: the next station is polled. -/
theorem test_poll_timer_expiry :
    ((after (.pollTimerExpiry 3) (put (party fun d => { d with pollTimer := some 0 }))).circuit 3).dialogue.state =
      .pollSending := by decide +kernel

theorem test_divert_step :
    ((after (.divertStep 3) (rec5 routed (put { queuedR with control :=
      { ready.control with state := .held, diverting := true } }))).message 5).interceptSet = 1 := by
  decide +kernel

/-- R4: the confirming sample is the eighth receive tick after the first space. -/
theorem test_receive_sample_tick :
    ((after (.receiveSampleTick 3 false) (put { ready with line :=
      { ready.line with receiver := .confirming 7 } })).circuit 3).line.receiver = .assembling 0 0 := by
  decide +kernel

/-- R103: the heading's first character, CR, goes to the line. -/
theorem test_send_tick :
    ((after (.sendTick 3) (rec5 routedActive (put { sending .heading 0 36 with
      line := ready.line }))).circuit 3).line.transmitter = .sending chCR 0 112 (some .sendController) := by
  decide +kernel

/-! ### What meets the statements' hypotheses

A witness with several lines has one for each clause, at a boundary of its range where it has one. -/

theorem witness_StepTakesFrontCommand :
    { State.reset with pending := [.minuteTick, .mirrorRun] }.pending = .minuteTick :: [.mirrorRun] := rfl

theorem witness_ClockCyclesRunAndGrantTheWaitingWrite :
    (∀ n ∈ [24574, 24575], { State.reset with divider := n }.pending = []) ∧
    (∀ made ∈ [3, 4], (let s : State := { inRun with arbiter := .granted .report made }
      s.pending = [] ∧ s.arbiter = .granted .report made ∧ Run.report ≠ .passage ∧
      (clockCycle s).runCycles .report = 5)) ∧
    (State.reset.arbiter.open = true ∧
     ((clockCycle State.reset).nextRun.any fun run => decide (run ≠ .report)) = true) ∧
    (let s : State := { State.reset with reports := { ReportWriter.reset with pending := [aReport] } }
     s.arbiter.open = true ∧ (clockCycle s).nextRun = some .report) ∧
    (clean.arbiter.open = true ∧ (clockCycle clean).nextRun = none ∧ clean.waiting = none) ∧
    (∀ cycle ∈ [PortCycle.write 5 6, .read 5], (let s : State := { State.reset with waiting := some cycle }
      s.arbiter.open = true ∧ s.waiting = some cycle ∧ (clockCycle s).grantee true = some .passage)) ∧
    (inRun.waiting = none ∧ inRun.grantee true ≠ some .passage) ∧
    (State.reset.waiting = none ∧ State.reset.grantee true = some .passage) ∧
    (∀ n ∈ [11, 12], (let s := { put { ready with textFifo := List.replicate n (.char 9 5) } with
        writer := { BlockWriter.reset with writes := [⟨0x4142, 7, .nothing⟩] } }
      s.arbiter.open = true ∧ s.writer.writes ≠ [] ∧ fifoCharacters (s.circuit 3).textFifo = n ∧
      s.writer.waiting = [])) ∧
    (let s := { put { ready with textFifo := List.replicate 12 (.char 9 5) } with
       pool := { Pool.reset with take := some 5 } }
     s.writer.writes = [] ∧ s.pool.take ≠ none) ∧
    (∀ run ∈ [Run.take, .blockWrite ⟨0x4142, 7, .nothing⟩, .passage],
      run.requester = .passage ∨ run.requester = .blockWriter ∨ run.requester = .poolUnit) := by decide +kernel

theorem witness_StepKeepsReportsLawful :
    { inRun with pending := [.reportWriteDone] }.reportsLawful ∧
    ∃ t, step { inRun with pending := [.reportWriteDone] } = .next t := ⟨by decide +kernel, _, rfl⟩

theorem witness_StepKeepsMapsLawful :
    { State.reset with pending := [.processorWrite 5 6], store := [(9, 1)] }.mapsLawful ∧
    ∃ t, step { State.reset with pending := [.processorWrite 5 6], store := [(9, 1)] } = .next t :=
  ⟨by decide +kernel, _, rfl⟩

theorem witness_StepKeepsCircuitsLawful :
    { put ready with pending := [.closeCommand 3 0] }.circuitsLawful ∧
    ∃ t, step { put ready with pending := [.closeCommand 3 0] } = .next t := ⟨by decide +kernel, _, rfl⟩

theorem witness_EveryShownChangeIsMarkedDirty :
    (let s := { setting3 0 1 with circuitDirty := Vector.replicate 32 false }
     s.reportsLawful ∧ Instr.openCommand 3 0 ≠ .mirrorRun ∧
     ((after (.openCommand 3 0) s).circuit 3).shown ≠ (s.circuit 3).shown) ∧
    (let s := { rec5 { routed with state := .done } with messageDirty := Vector.replicate 128 false }
     s.reportsLawful ∧ ((after (.releaseOrder 261) s).message 5).shown ≠ (s.message 5).shown) ∧
    (let s := { State.reset with tickCount := 5999, officeDirty := false }
     s.reportsLawful ∧ (after .minuteTick s).officeWords.drop 1 ≠ s.officeWords.drop 1) := by decide +kernel

theorem witness_ResetsReturnThePartToItsResetValues :
    (4 : Fin 8) ≠ State.reset.strapBefore ∧ (0 : Fin 8) = State.reset.strapBefore ∧
    State.reset.arbiter.open = true ∧ inRun.arbiter = .granted .report 0 ∧ Run.report ≠ .passage := by
  decide +kernel

theorem witness_OfficeTickRunsTimersWatchAndCheck :
    { State.reset with tickCount := 5998 }.tickCount < 5999 ∧
    ¬ { State.reset with tickCount := 5999 }.tickCount < 5999 ∧
    (let s := put { ready with line := { ready.line with openCount := 4, loopCount := 9 } }
     (s.circuit 3).line.openCount < (s.circuit 3).control.effective.openLineTime ∧
     (s.circuit 3).line.loopDetector = .armed ∧ (s.circuit 3).line.loopCount < 10 ∧
     (s.circuit 3).control.state ≠ .checking) ∧
    (let s := put { ready with line := { ready.line with openCount := 5, loopCount := 10 } }
     (s.circuit 3).control.effective.openLineTime ≤ (s.circuit 3).line.openCount ∧
     (s.circuit 3).line.openDetector = .armed ∧ (s.circuit 3).line.loopDetector = .armed ∧
     10 ≤ (s.circuit 3).line.loopCount) ∧
    (let s := put { ready with line := { ready.line with openCount := 5, openDetector := .tripped } }
     (s.circuit 3).control.effective.openLineTime ≤ (s.circuit 3).line.openCount ∧
     (s.circuit 3).line.openDetector = .tripped) ∧
    (let s := put { opened .point .checking with control :=
       { (opened .point .checking).control with markRun := 100 } }
     (s.circuit 3).control.state = .checking ∧ 100 ≤ (s.circuit 3).control.markRun) ∧
    (let s := put { ready with line := { ready.line with loopDetector := .tripped } }
     (s.circuit 3).line.loopDetector = .tripped ∧ (8 : BitVec 32).getLsbD 3 = true ∧
     (0 : BitVec 32).getLsbD 3 = false) ∧
    (∀ n ∈ [999, 1000], (let s := put { opened .point .checking with control :=
       { (opened .point .checking).control with checkCount := n, markRun := 99 } }
     (s.circuit 3).control.state = .checking ∧ (s.circuit 3).control.markRun < 100 ∧
     (s.circuit 3).control.checkCount = n ∧ (s.circuit 3).control.noLineReported = false)) := by decide +kernel

theorem witness_MinuteTickReportsOverdueMessages :
    { State.reset with tickCount := 5998 }.tickCount < 5999 ∧
    5999 ≤ { State.reset with tickCount := 5999 }.tickCount ∧
    ∀ c : Circuit, (BitVec.allOnes 32).getLsbD c.val = (State.reset.circuit c).line.receiveIn := by decide +kernel

theorem witness_ReceiveTicksDriveTheReceiverAndItsRearming :
    ((put ready).circuit 3).line.receiver.stopSampleDue = false ∧
    (Receiver.confirming 7).stopSampleDue = false ∧ (Receiver.assembling 94 0).stopSampleDue = false ∧
    (let s := put { ready with line := { ready.line with openDetector := .tripped, openMarkRun := 16 } }
     (s.circuit 3).line.openDetector = .tripped ∧ 16 ≤ (s.circuit 3).line.openMarkRun) := by decide +kernel

theorem witness_CharacterOutOfServiceIsDiscarded :
    (let s := put { opened .point .checking with line :=
       { ready.line with receiver := .assembling 95 9 } }
     (s.circuit 3).line.receiver = .assembling 95 9 ∧ 95 ≤ 95 ∧ s.inService 3 = false) ∧
    (let s := rec5 filling (put (arriving 9 inText))
     (s.circuit 3).line.receiver = .assembling 95 9 ∧ s.inService 3 = true ∧
     ((after (.characterReceived 3 false) s).circuit 3).line.framingErrors = 1) := by decide +kernel

theorem witness_TextCharacterEntersTheFifo :
    (let s := rec5 filling (put (arriving 9 inText))
     (s.circuit 3).line.receiver = .assembling 95 9 ∧ 95 ≤ 95 ∧ s.inService 3 = true ∧
     s.isParty 3 = false ∧ (s.recogniser 3).state = .text ∧ (s.recogniser 3).lineStart = false ∧
     (s.recogniser 3).filling = some 5 ∧ speedSettingInvalid (s.setting 3 1) = false) ∧
    fifoCharacters (List.replicate 15 (.char 9 5)) < 16 ∧
    ¬ fifoCharacters (List.replicate 16 (.char 9 5)) < 16 ∧
    ¬ (rec5 { filling with textLength := 58 }).maxLength ≤ 58 + 1 ∧
    (rec5 { filling with textLength := 59 }).maxLength ≤ 59 + 1 := by decide +kernel

theorem witness_StartOfMessageGrantsTheLowestFreeRecord :
    (∀ m ∈ [Message.free 0, routed],
      (let s := { put (arriving chH fun x => { x with somCount := 2 }) with messages := Vector.replicate 128 m }
       (s.circuit 3).line.receiver = .assembling 95 chH ∧ 95 ≤ 95 ∧ s.inService 3 = true ∧
       s.isParty 3 = false ∧ (s.recogniser 3).state = .hunt ∧ (s.recogniser 3).shift = .letters ∧
       (s.recogniser 3).lineStart = true ∧ (s.recogniser 3).somCount = 2 ∧
       speedSettingInvalid (s.setting 3 1) = false)) ∧
    State.reset.suspensionLawful ∧
    { State.reset with messages := Vector.replicate 128 (Message.free 0) }.lowestFree = some 0 ∧
    { State.reset with messages := Vector.replicate 128 routed }.lowestFree = none := by decide +kernel

/-- Held letters. -/
def heldOf (letters : List RelayChar) : List RxChar := letters.map fun v => ⟨v, false, .letters⟩

/-- A point circuit whose receiver has reached the stop sample of a character at line start in the text of record 5,
with letters held. -/
def watching (bits : RelayChar) (letters : List RelayChar) (f : Recogniser → Recogniser := id) : State :=
  rec5 filling (put (arriving bits fun x =>
    f { x with state := .text, lineStart := true, filling := some 5, held := heldOf letters }))

theorem witness_SilenceEndsTheMessage :
    (let s := put { ready with recogniser := { ready.recogniser with silence := some 0 } }
     (s.recogniser 3).silence = some 0 ∧ (s.recogniser 3).state = .hunt) ∧
    (let s := rec5 filling (put { ready with recogniser :=
       { inText ready.recogniser with silence := some 0 } })
     (s.recogniser 3).silence = some 0 ∧ (s.recogniser 3).state = .text ∧
     (s.recogniser 3).filling = some 5 ∧ (s.recogniser 3).held = [] ∧
     (s.recogniser 3).discardCause = none ∧ s.isParty 3 = false) ∧
    (let s := put { ready with recogniser :=
       { ready.recogniser with
         silence := some 0, state := .discard, discardCause := some .tableFull, dropped := 7 } }
     (s.recogniser 3).silence = some 0 ∧ (s.recogniser 3).state = .discard ∧
     (s.recogniser 3).filling = none ∧ (s.recogniser 3).held = [] ∧
     (s.recogniser 3).discardCause = some .tableFull ∧ s.isParty 3 = false) ∧
    -- the line-start watch: held, EEEE, QQQQ, HHH, and a break behind 8 held and by another letter
    (∀ e ∈ [((10 : RelayChar), [(10 : RelayChar), 10]), (10, [10, 10, 10]), (22, [22, 22, 22]), (13, [13, 13]),
        (22, [10]), (10, [4, 4, 4, 4, 4, 5, 5, 5])],
      (let s := watching e.1 e.2
       (s.circuit 3).line.receiver = .assembling 95 e.1 ∧ 95 ≤ 95 ∧ s.inService 3 = true ∧ s.isParty 3 = false ∧
       speedSettingInvalid (s.setting 3 1) = false ∧ (s.recogniser 3).lineStart = true ∧
       (s.recogniser 3).state = .text ∧ (s.recogniser 3).filling = some 5 ∧ (s.recogniser 3).shift = .letters ∧
       (s.recogniser 3).discardCause = none ∧ s.pool.take = none ∧ s.writer.writes = [] ∧
       (s.message 5).state = .filling ∧ s.mapsLawful ∧ s.suspensionLawful ∧ s.lowestFree = some 0 ∧
       (s.message 5).textLength + 8 + 1 < s.maxLength)) ∧
    ((heldOf [10, 10, 10]).length < 8 ∧ ¬ (heldOf [4, 4, 4, 4, 4, 5, 5, 5]).length < 8) ∧
    (∀ e ∈ [(DiscardCause.tableFull, (none : Option RecordIdx)), (.poolEmpty, some 5), (.length, some 5)],
      (let s := watching 10 [10, 10, 10] fun x =>
         { x with state := .discard, discardCause := some e.1, filling := e.2, dropped := 65534 }
       (s.recogniser 3).state = .discard ∧ (s.recogniser 3).discardCause = some e.1 ∧
       ((s.recogniser 3).filling = none ↔ e.1 = .tableFull))) := by decide +kernel

/-- Circuit 3 as given, with all three line detections due. -/
def detecting (mode : Word) (x : CircuitState := ready) : State :=
  setting3 0 mode (put { x with line := { x.line with openCount := 5, loopCount := 10, framingCount := 4 } })

/-- Circuit 3 in a line check that has not passed by a check count of 1000. -/
def unpassed (mode : Word) : State :=
  setting3 0 mode (put { opened .point .checking with control :=
    { (opened .point .checking).control with checkCount := 1000, markRun := 99 } })

theorem witness_DetectionUnderReportOrIgnoreDisturbsNothing :
    (∀ e ∈ [((0x20 : Word), CircuitMode.ready), (0x30, .fault), (0, .retryWait), (0, .closed), (0, .checking)],
      (let s := detecting e.1 (opened .point e.2)
       (s.circuit 3).control.state = e.2 ∧ (s.circuit 3).line.openDetector = .armed ∧
       (s.circuit 3).control.effective.openLineTime ≤ (s.circuit 3).line.openCount ∧
       (s.circuit 3).line.loopDetector = .armed ∧ 10 ≤ (s.circuit 3).line.loopCount ∧
       (s.circuit 3).line.framingDetector = .armed ∧ 4 ≤ (s.circuit 3).line.framingCount)) ∧
    faultModeOf ((detecting 0x20).setting 3 0) = .report ∧ faultModeOf ((detecting 0x30).setting 3 0) = .ignore ∧
    (let s := unpassed 0x20
     (s.circuit 3).control.state = .checking ∧ (s.circuit 3).control.checkCount = 1000 ∧
     (s.circuit 3).control.markRun < 100 ∧ (s.circuit 3).control.noLineReported = false ∧
     faultModeOf (s.setting 3 0) = .report) := by decide +kernel

theorem witness_DetectionUnderLatchedOrRetryStopsTheCircuit :
    (∀ e ∈ [((0x10 : Word), opened .point .fault), (0x10, ready), (0, party id), (0, sending .text 2 20),
        (0, { ready with recogniser := inText ready.recogniser })],
      (let s := rec5 routedActive (detecting e.1 e.2)
       (s.circuit 3).control.state = e.2.control.state ∧ (s.circuit 3).line.openDetector = .armed ∧
       (s.circuit 3).control.effective.openLineTime ≤ (s.circuit 3).line.openCount ∧
       (s.circuit 3).line.loopDetector = .armed ∧ 10 ≤ (s.circuit 3).line.loopCount ∧
       (s.circuit 3).line.framingDetector = .armed ∧ 4 ≤ (s.circuit 3).line.framingCount)) ∧
    faultModeOf ((detecting 0x10).setting 3 0) = .retry ∧ faultModeOf ((detecting 0).setting 3 0) = .latched ∧
    (detecting 0).inService 3 = true ∧ (opened .point .checking).control.state = .checking ∧
    (ready.send = .none ∧ ready.recogniser.state = .hunt) ∧
    (let s := rec5 routedActive (detecting 0 (sending .text 2 20))
     s.isParty 3 = false ∧ (s.recogniser 3).state = .hunt ∧ (s.circuit 3).send.active = some (5, 0) ∧
     s.delivery 5 0 = some { delivery0 with state := .active } ∧ delivery0.circuit = 3 ∧
     (s.circuit 3).send.pendingCancel = false ∧ (s.circuit 3).send.cause ≠ some .order ∧
     ∀ j : SlotIdx, j ≠ 0 → s.delivery 5 j = none) ∧
    (let s := rec5 filling (detecting 0 { ready with recogniser := inText ready.recogniser })
     s.isParty 3 = false ∧ (s.circuit 3).send = .none ∧ (s.recogniser 3).state ≠ .hunt ∧
     (s.recogniser 3).filling = some 5 ∧ (s.recogniser 3).discardCause = none) ∧
    (let s := unpassed 0
     (s.circuit 3).control.state = .checking ∧ (s.circuit 3).control.checkCount = 1000 ∧
     (s.circuit 3).control.markRun < 100 ∧ (s.circuit 3).control.noLineReported = false ∧
     (s.circuit 3).send = .none ∧ s.isParty 3 = false ∧ (s.recogniser 3).state = .hunt ∧
     faultModeOf (s.setting 3 0) = .latched) := by decide +kernel

/-- Circuit 3 with its first heading character offered to an IDLE transmitter. -/
def offering : State := rec5 routedActive (put { sending .heading 0 36 with line := ready.line })

theorem witness_SendTickRunsTheTransmitter :
    (let s := put { ready with line := { ready.line with transmitter := .sending 6 110 112 none } }
     (s.circuit 3).line.transmitter = .sending 6 110 112 none ∧ 110 + 1 < 112) ∧
    (((put ready).circuit 3).line.transmitter = .idle ∧ ((put ready).circuit 3).send.pendingCancel = false ∧
     (put ready).preempts 3 = false ∧ (put ready).offered 3 = none) ∧
    ((offering.circuit 3).line.transmitter = .idle ∧ (offering.circuit 3).send.pendingCancel = false ∧
     offering.preempts 3 = false ∧ offering.offered 3 = some (chCR, .sendController)) := by decide +kernel

theorem witness_HeadingCharactersFollowEachOther :
    (∀ e ∈ [(Phase.heading, 17), (.heading, 18), (.dest, 2), (.dest, 3), (.text, 2), (.text, 3), (.trailer, 7)],
      (let s := rec5 routedActive (put (sending e.1 e.2 20))
       (s.circuit 3).line.transmitter = .sending 6 111 112 (some .sendController) ∧ 112 ≤ 111 + 1 ∧
       (s.circuit 3).send.active = some (5, 0) ∧ s.delivery 5 0 = some { delivery0 with state := .active } ∧
       (s.circuit 3).send.pendingCancel = false ∧ s.preempts 3 = false ∧
       s.isParty 3 = false ∧ s.inService 3 = true ∧ speedSettingInvalid (s.setting 3 1) = false ∧
       (s.circuit 3).send.phase = e.1 ∧ (s.circuit 3).send.position = e.2 ∧ (s.message 5).textLength = 4 ∧
       (destinationLine (s.message 5) delivery0.codes).length = 4)) := by
  decide +kernel

theorem witness_LastTrailerCharacterDeliversTheMessage :
    (∀ e ∈ [(Phase.trailer, (none : Option CancelCause)), (.cancel, some .order), (.cancel, some .preempt)],
      (let x := sending e.1 8 1
       let s := rec5 routedActive (put { x with send := { x.send with cause := e.2 } })
       (s.circuit 3).line.transmitter = .sending 6 111 112 (some .sendController) ∧ 112 ≤ 111 + 1 ∧
       (s.circuit 3).send.phase = e.1 ∧ (s.circuit 3).send.position = 8 ∧ (s.circuit 3).send.cause = e.2 ∧
       (s.circuit 3).send.active = some (5, 0) ∧ delivery0.circuit = 3 ∧
       s.delivery 5 0 = some { delivery0 with state := .active } ∧ s.isParty 3 = false ∧
       ∀ j : SlotIdx, j ≠ 0 → s.delivery 5 j = none)) ∧
    (∀ hold ∈ [false, true], (let s := put { ready with control := { ready.control with holdPending := hold } }
      (s.circuit 3).control.holdPending = hold ∧ speedSettingInvalid (s.setting 3 1) = false)) ∧
    (∀ e ∈ [(Phase.trailer, false, (none : Option CancelCause)), (.trailer, true, none), (.cancel, true, some .order),
       (.cancel, false, some .preempt)],
      (let x := sending e.1 8 1
       let s := rec5 routedActive (put { party id with
         line := x.line, send := { x.send with pendingCancel := e.2.1, cause := e.2.2 } })
       (s.circuit 3).line.transmitter = .sending 6 111 112 (some .sendController) ∧
       (s.circuit 3).send.position = 8 ∧ s.isParty 3 = true ∧ (s.circuit 3).send.phase = e.1 ∧
       (s.circuit 3).send.pendingCancel = e.2.1 ∧ (s.circuit 3).send.cause = e.2.2 ∧
       speedSettingInvalid (s.setting 3 1) = false ∧ (s.circuit 3).send.active = some (5, 0) ∧
       s.delivery 5 0 = some { delivery0 with state := .active } ∧
       ∀ j : SlotIdx, j ≠ 0 → s.delivery 5 j = none)) := by decide +kernel

/-- Circuit 3 sending the text of record 5, with a train order waiting. -/
def trainWaits : State :=
  rec5 routedActive (put { sending .text 2 20 with
    queues := { Queues.empty with t := ⟨[⟨6, 0, 36⟩], 36⟩ }
    control := { ready.control with effective := { ready.control.effective with preemption := true } } })

theorem witness_TrainOrderPreemptsAtTheBoundary :
    (let s := trainWaits
     (s.circuit 3).line.transmitter = .sending 6 111 112 (some .sendController) ∧ 112 ≤ 111 + 1 ∧
     (s.circuit 3).send.active = some (5, 0) ∧ (s.circuit 3).send.phase = .text ∧
     (s.circuit 3).send.position + 1 < (s.message 5).textLength ∧
     (s.circuit 3).send.pendingCancel = false ∧ s.isParty 3 = false ∧
     (s.circuit 3).control.effective.preemption = true ∧ (s.message 5).rank = .r ∧
     ¬ ((s.circuit 3).control.state = .ready ∧ (s.circuit 3).control.holdPending = true) ∧
     (⟨6, 0, 36⟩ : QueueEntry) ∈ (s.queue 3 .t).entries ∧ s.inService 3 = true ∧
     speedSettingInvalid (s.setting 3 1) = false) := by decide +kernel

/-- Circuit 3's text FIFO holds one character or ending, for record 5 with the fill state given. -/
def fifoOf (item : FifoItem) (f : Fill) : State :=
  { rec5 filling (put { ready with textFifo := [item] }) with fills := State.reset.fills.set 5 f }

theorem witness_TextCharacterTakenFillsOrAsksForABlock :
    (let s := fifoOf (.char 7 5) ⟨some 10, 58, none, false⟩
     s.writer.writes = [] ∧ s.nextServed = some 3 ∧ (s.circuit 3).textFifo = .char 7 5 :: [] ∧
     (s.fill 5).current = some 10 ∧ (s.fill 5).position < 60 ∧ (s.fill 5).position % 2 = 0) ∧
    (let s := fifoOf (.char 7 5) ⟨some 10, 59, some 6, false⟩
     s.writer.writes = [] ∧ s.nextServed = some 3 ∧ (s.circuit 3).textFifo = .char 7 5 :: [] ∧
     (s.fill 5).current = some 10 ∧ (s.fill 5).position < 60 ∧ (s.fill 5).position % 2 = 1) ∧
    (let s := { fifoOf (.char 7 5) ⟨some 10, 60, none, false⟩ with pool := { Pool.reset with count := 1 } }
     s.writer.writes = [] ∧ s.nextServed = some 3 ∧ (s.circuit 3).textFifo = .char 7 5 :: [] ∧
     (s.fill 5).position = 60 ∧ s.writer.waiting = [] ∧ 0 < s.pool.count) ∧
    (let s := fifoOf (.char 7 5) .empty
     s.writer.writes = [] ∧ s.nextServed = some 3 ∧ (s.circuit 3).textFifo = .char 7 5 :: [] ∧
     (s.fill 5).current = none ∧ s.writer.waiting = [] ∧ s.pool.count = 0) := by decide +kernel

/-- A block writer with one write to make. -/
def writing (next : AfterWrite) : State :=
  { fifoOf (.char 7 5) ⟨some 10, 1, some 6, false⟩ with
    writer := { BlockWriter.reset with writes := [⟨0x4142, 0x0706, next⟩] } }

theorem witness_OwnWritesStoreTheirWords :
    (∀ next ∈ [AfterWrite.nothing, .joined 5, .leave 3 5, .letGo 5 .eom],
      (writing next).nextRun = some (.blockWrite ⟨0x4142, 0x0706, next⟩) ∧
      (writing next).writer.writes = ⟨0x4142, 0x0706, next⟩ :: [] ∧ (writing next).mapsLawful) ∧
    ((writing (.joined 5)).fill 5).cancelled = false ∧
    (let s := { State.reset with arbiter := .granted (.blockWrite ⟨0x4142, 0x0706, .leave 3 5⟩) 0 }
     s.arbiter = .granted (.blockWrite ⟨0x4142, 0x0706, .leave 3 5⟩) 0 ∧
     s.writer.writes.head? ≠ some ⟨0x4142, 0x0706, .leave 3 5⟩ ∧ s.mapsLawful) ∧
    (let s := { State.reset with pool := { Pool.reset with returns := [(10, 20)] } }
     s.nextRun = some (.returnWrite 10 20) ∧ s.mapsLawful) := by decide +kernel

theorem witness_EndingReachedClosesTheMessage :
    (∀ k ∈ [4, 5],
      (let s := fifoOf (.ending 5 .eom) ⟨some 10, k, none, false⟩
       s.writer.writes = [] ∧ s.nextServed = some 3 ∧ (s.circuit 3).textFifo = .ending 5 .eom :: [] ∧
       (s.fill 5).current = some 10)) ∧
    (let s := fifoOf (.ending 5 .missingEnd) .empty
     s.writer.writes = [] ∧ s.nextServed = some 3 ∧ (s.circuit 3).textFifo = .ending 5 .missingEnd :: [] ∧
     (s.fill 5).current = none ∧ (s.message 5).state = .filling ∧ (s.message 5).hold = true) ∧
    (let s := rec5 { filling with flags := { MessageFlags.clear with truncated := true } }
       (fifoOf (.ending 5 .silence) .empty)
     s.nextServed = some 3 ∧ (s.message 5).flags.wholeIntercept = true) := by decide +kernel

theorem witness_TakeMovesThePoolHeadToTheMessage :
    (∀ k ∈ [1, 2],
      (let s := { fifoOf (.char 7 5) ⟨some 9, 60, none, false⟩ with
         pool := { Pool.reset with head := some 10, tail := some 11, count := k, take := some 5 } }
       s.nextRun = some .take ∧ s.pool.take = some 5 ∧ s.pool.head = some 10 ∧
       (s.fill 5).cancelled = false ∧ s.mapsLawful)) := by decide +kernel

theorem witness_TextFetchReadsTheChain :
    (let s := fetching none
     s.nextRun = some (.fetchBlock 3 ⟨10, 3, none⟩) ∧ (s.circuit 3).send.fetch = some ⟨10, 3, none⟩) ∧
    (let f : Fetch := ⟨10, 3, some ⟨3, 0, 0xFFFF⟩⟩
     let s := { fetching f.run with arbiter := .granted (.fetchText 3 f) 0 }
     s.arbiter = .granted (.fetchText 3 f) 0 ∧ (s.circuit 3).send.fetch = some f ∧ 0 < 3 ∧ 3 ≤ 3) ∧
    (∀ run ∈ [Run.fetchBlock 3 ⟨10, 3, none⟩, .fetchText 3 ⟨10, 3, some ⟨3, 0, 0xFFFF⟩⟩],
      { State.reset with arbiter := .granted run 0 }.arbiter = .granted run 0 ∧
      (State.reset.circuit 3).send.fetch = none) := by decide +kernel

/-- A build of the pool unit. -/
def building (g : Give) (s : State := State.reset) : State := { s with pool := { Pool.reset with give := some g } }

theorem witness_GiveOrderBuildsItsRange :
    (let s := building ⟨7, 9, 0, 0⟩
     s.granted ∧ s.mapsLawful ∧ s.pool.give = some ⟨7, 9, 0, 0⟩) ∧
    (let s := State.reset.setShadow 0x2D 3583
     s.granted ∧ s.mapsLawful ∧ s.pool.give = none ∧
     (s.shadowAt 0x2D).toNat < min ((s.shadowAt 0x2D).toNat + (9 : Word).toNat) 3584) ∧
    (let s := State.reset.setShadow 0x2D 3584
     s.granted ∧ s.mapsLawful ∧ s.pool.give = none ∧
     min ((s.shadowAt 0x2D).toNat + (9 : Word).toNat) 3584 ≤ (s.shadowAt 0x2D).toNat) ∧
    (let s := building ⟨8, 9, 0, 0⟩
     s.pool.give = some ⟨8, 9, 0, 0⟩ ∧ s.mapsLawful ∧ s.nextRun = some .give) ∧
    (let s := { State.reset with
       arbiter := .granted .give 1
       pool := { Pool.reset with
         head := some 9, tail := some 9, count := 1, take := some 5, give := some ⟨7, 9, 0, 0⟩ } }
     s.pool.give = some ⟨7, 9, 0, 0⟩ ∧ s.mapsLawful ∧ s.arbiter = .granted .give 1) ∧
    (let s := building ⟨7, 9, 0, 0⟩ (State.reset.setOwner 7 .pool)
     s.pool.take = none ∧ s.poolUnitIdle = true ∧ s.pool.give = some ⟨7, 9, 0, 0⟩ ∧ s.mapsLawful ∧
     s.owner 7 ≠ .processor) := by decide +kernel

theorem witness_SuspensionFollowsReservePoolAndTable :
    (State.reset.granted ∧ State.reset.mapsLawful) ∧ State.reset.pool.suspension = false ∧
    (let s := { State.reset.setShadow 0 4 with pool := { Pool.reset with count := 4, suspension := true } }
     s.pool.suspension = true ∧
     (decide (s.pool.count < min (s.shadowAt 0).toNat 3584) || decide (s.freeCount < 2)) = false) ∧
    (let s := { State.reset with
       pool := { Pool.reset with count := 1 }, writer := { BlockWriter.reset with waiting := [5] } }
     s.pool.take = none ∧ s.writer.waiting = 5 :: [] ∧ 0 < s.pool.count) := by decide +kernel

/-- A post record: the precedence and code count word, the block count and the head block as given. -/
def posting (w2 w1 w0 : Word) : State :=
  ((((State.reset.setShadow 0x20 w0).setShadow 0x21 w1).setShadow 0x22 w2).setShadow 0x23 0x0607).setShadow
    0x24 0x061F

theorem witness_PostTriggerIsCheckedAndBeginsTheWalk :
    (∀ s ∈ [walking false, { State.reset with messages := Vector.replicate 128 routed },
        posting 0x0401 1 10, posting 0x0300 1 10, posting 0x0309 1 10, posting 0x0301 3585 10,
        posting 0x0301 1 3584],
      s.granted ∧ s.mapsLawful) ∧
    (walking false).walk ≠ none ∧
    { State.reset with messages := Vector.replicate 128 routed }.lowestFree = none ∧
    3 < highByte ((posting 0x0401 1 10).shadowAt 0x22) ∧
    lowByte ((posting 0x0300 1 10).shadowAt 0x22) < 1 ∧ 8 < lowByte ((posting 0x0309 1 10).shadowAt 0x22) ∧
    3584 < ((posting 0x0301 3585 10).shadowAt 0x21).toNat ∧
    ¬ ((posting 0x0301 1 3584).shadowAt 0x20).toNat < 3584 ∧
    (let s := posting 0x0301 3584 3583
     s.granted ∧ s.mapsLawful ∧ s.suspensionLawful ∧ s.walk = none ∧ s.lowestFree = some 0 ∧
     s.postFieldRefusal = none ∧ precedenceOf (highByte (s.shadowAt 0x22)) = some .s) := by decide +kernel

/-- A walk over two blocks, at its first block, whose link is given. -/
def walkAt (link : Word) : State :=
  { walking false with
    walk := some { record := 5, head := 10, wanted := 2, taken := 0, sum := 0, block := 10, ending := false }
    store := [(0x4140, link), (0x4141, 12)] }

theorem witness_WalkTakesItsChainOrRollsBack :
    (∀ s ∈ [walking false, walkAt 3583, walkAt 3584, (walking false).setOwner 10 .pool],
      s.nextRun = some .walkRead ∧ s.mapsLawful ∧
      s.walk.any (fun w => !w.ending) = true ∧ (s.message 5).state = .posting) ∧
    (walking false).owner 10 = .processor ∧ 0 + 12 ≤ (walking false).maxLength ∧
    ((walkAt 3583).readRelay (offBlock 10 0)).toNat < 3584 ∧
    3584 ≤ ((walkAt 3584).readRelay (offBlock 10 0)).toNat ∧
    ((walking false).setOwner 10 .pool).owner 10 ≠ .processor ∧
    (let s := { walking false with
       walk := some { record := 5, head := 9, wanted := 2, taken := 1, sum := 49, block := 10, ending := false } }
     s.owner 10 = .processor ∧ 1 + 1 = 2 ∧ s.nextRun = some .walkRead ∧
     s.maxLength < 49 + min (lowByte (s.readRelay (offBlock 10 1))) 60) ∧
    (let s := walking true
     s.nextRun = some .walkEnd ∧ s.walk = some ⟨5, 10, 1, 0, 0, 10, true⟩ ∧ s.mapsLawful) := by decide +kernel

/-- Record 5 at the end of its life. -/
def done5 : Message := { routed with state := .done, slots := Vector.replicate 8 none }

theorem witness_ReleaseOrderFreesADoneMessage :
    (∀ m ∈ [Message.free 2, filling, routed, { routed with hold := false }, done5],
      (rec5 m).granted ∧ (rec5 m).mapsLawful ∧ tagGeneration 261 = m.generation) ∧
    tagRecord 261 = 5 ∧ tagGeneration 389 ≠ routed.generation ∧ tagRecord 389 = 5 ∧
    (Message.free 2).state = .free ∧ filling.state = .filling ∧
    routed.state = .routed ∧ routed.hold = true ∧ routed.hasPending = true ∧
    { routed with hold := false }.hold = false ∧ done5.state = .done ∧ done5.hold = true := by decide +kernel

theorem witness_CancelOrderEndsQueuedDeliveries :
    (∀ m ∈ [Message.free 2, filling, routed, done5],
      (rec5 m (put queuedR)).granted ∧ (rec5 m (put queuedR)).mapsLawful ∧ tagGeneration 261 = m.generation) ∧
    tagGeneration 389 ≠ routed.generation ∧ done5.state = .done ∧
    routed.state = .routed ∧ routed.hold = true ∧
    (∀ k : SlotIdx, ∀ d, routed.slots[k] = some d → d.state ≠ .active) ∧
    (∀ c : Circuit, (rec5 routed (put queuedR)).isDiverting c = false) ∧
    (∀ phase ∈ [Phase.heading, .dest, .text, .trailer, .cancel, .receipt],
      (let s := rec5 routedActive (put { party id with send := (sending phase 0 20).send })
       s.granted ∧ s.mapsLawful ∧ tagGeneration 261 = routedActive.generation ∧ routedActive.state = .routed ∧
       s.delivery 5 0 = some { delivery0 with state := .active } ∧ delivery0.circuit = 3 ∧
       (∀ j : SlotIdx, j ≠ 0 → s.delivery 5 j = none) ∧ (s.circuit 3).send.phase = phase ∧
       (s.circuit 3).send.active = some (5, 0) ∧ s.isParty 3 = true ∧
       (s.circuit 3).control.holdPending = false ∧ routedActive.hold = true)) :=
  ⟨by decide +kernel, by decide, rfl, rfl, rfl,
   fun k => holds_of_all ((show ∀ k : SlotIdx, (routed.slots[k].all fun d => decide (d.state ≠ .active)) = true
     from by decide +kernel) k), by decide +kernel, by decide +kernel⟩

theorem witness_SettleMovesARecordOn :
    (routed.state ≠ .done ∧ ¬ (∀ k : SlotIdx, (routed.slots[k].all fun d =>
      decide (d.state ≠ .queued)) = true)) ∧
    (let m := { done5 with state := .routed }
     m.state = .routed ∧ m.hold = true ∧ ∀ k : SlotIdx, m.slots[k] = none) ∧
    ({ done5 with hold := false }.state = .done ∧ { done5 with hold := false }.hold = false ∧
     (rec5 { done5 with hold := false }).mapsLawful) ∧
    Pool.reset.count = 0 ∧ (let p := { Pool.reset with head := some 1, tail := some 2, count := 5 }
      p.count ≠ 0 ∧ p.tail = some 2) ∧ 511 ≤ 511 := by decide +kernel

theorem witness_BacklogIsTheSaturatedCeiling :
    (trainWaits.preemptable 3 = true ∧ trainWaits.backlog 3 .t < 65535) ∧
    (let s := trainWaits.updSend 3 fun x => { x with pendingCancel := true }
     s.preemptable 3 = true ∧ s.inFlight 3 .t = 9 ∧ s.preempts 3 = false) ∧
    (put ready).backlog 3 .s = 0 ∧ ((put ready).circuit 3).send.active = none ∧
    ((put { ready with queues := { Queues.empty with t := ⟨[], 67162112⟩ } }).backlog 3 .t = 65535) := by
  decide +kernel

/-- Circuits 3 and 4, with the diverting mark and the T queue count of each. -/
def pair (d3 d4 : Bool) (q3 q4 : Nat) : State :=
  let x : Bool → Nat → CircuitState := fun d q =>
    { ready with control := { ready.control with diverting := d }, queues := { Queues.empty with t := ⟨[], q⟩ } }
  { put (x d3 q3) with circuits := (put (x d3 q3)).circuits.set 4 (x d4 q4) }

theorem witness_RouteUnitChoosesByAvailabilityAndBacklog :
    (pair true true 0 0).isDiverting 3 = true ∧ (pair true true 0 0).isDiverting 4 = true ∧
    ((pair true false 0 0).isDiverting 3 = true ∧ (pair true false 0 0).isDiverting 4 = false) ∧
    (let s := pair false false 66 10
     s.isDiverting 3 = false ∧ s.isDiverting 4 = false ∧
     s.normalTarget ⟨3, 0⟩ ≠ s.normalTarget ⟨4, 0⟩ ∧ s.normalTarget ⟨3, 0⟩ = s.normalTarget ⟨3, 5⟩ ∧
     s.available ⟨4, 0⟩ = true ∧ s.available ⟨3, 0⟩ = true ∧
     100 * 1 < s.backlog 3 .t ∧ s.backlog 4 .t < s.backlog 3 .t) := by decide +kernel

theorem witness_EveryPositionIsPlacedOnce :
    { routed with destinations := List.replicate 8 .badCode }.destinations.length ≤ 8 ∧
    { routed with destinations := List.replicate 8 .badCode }.destinations[7]? = some .badCode ∧
    ((rec5 routed (put ready)).setShadow (offRoute ⟨8, 9⟩) 0x000E).choose .r (.code ⟨8, 9⟩) = .target ⟨3, 0⟩ ∧
    [(0 : Word), 1, 2, 3, 0x8002].all (fun w =>
      decide ((State.reset.setShadow (offRoute ⟨31, 31⟩) w).shadowAt 0xD46 = w)) = true ∧
    (31 : RelayChar).toNat = 31 := by
  refine ⟨?_, ?_, ?_, ?_, ?_⟩ <;> decide +kernel

/-- Code C, D (8, 9) is assigned to circuit 3, with no alternate. -/
def assigned (s : State) : State := s.setShadow (offRoute ⟨8, 9⟩) 0x000E

theorem witness_RoutingEventTakesTheWholeResult :
    (let m := { routed with state := .filling, slots := Vector.replicate 8 none }
     let s := assigned (rec5 m (put ready))
     (∀ k : SlotIdx, (s.message 5).slots[k] = none) ∧
     (s.routeMessage (s.message 5)).groups = [(⟨3, 0⟩, 1)]) := by decide +kernel

theorem witness_PointSchedulerStartsTheHeadOfTheHighestQueue :
    (let s := rec5 routed (put queuedR)
     s.isParty 3 = false ∧ (s.circuit 3).control.state = .ready ∧
     (s.circuit 3).control.holdPending = false ∧ (s.circuit 3).control.diverting = false ∧
     (s.circuit 3).send.phase = .idle ∧ (s.queue 3 .r).entries = ⟨5, 0, 36⟩ :: [] ∧
     (∀ q ∈ Precedence.r.andAbove, q ≠ .r → (s.queue 3 q).entries = []) ∧
     (s.message 5).rank = .r ∧ s.delivery 5 0 = some delivery0) ∧
    (∀ p, ((put ready).queue 3 p).entries = []) ∧
    ((put { ready with control := { ready.control with holdPending := true } }).circuit 3).control.holdPending =
      true := ⟨by decide +kernel, fun p => by cases p <;> decide +kernel, by decide +kernel⟩

/-- A party circuit with a delivery of record 5 queued for station 2. -/
def partyQueue (q : Queues) (d : Dialogue → Dialogue) : State :=
  rec5 { routed with slots := (Vector.replicate 8 none).set 0 (some { delivery0 with station := 2 }) }
    (put { party d with queues := q })

/-- Circuit 3 at the end of a character of a sequence that its dialogue sends to station 2. -/
def dialogueSends (state : DialogueState) (position : Nat) : CircuitState :=
  let x := party fun d => { d with state := state, selected := some 2, sequencePos := position }
  { x with line := { x.line with transmitter := .sending 6 111 112 (some .dialogue) } }

theorem witness_PartySchedulerChoosesInOrder :
    (let s := partyQueue { Queues.empty with t := ⟨[⟨5, 0, 36⟩], 36⟩ } id
     s.isParty 3 = true ∧ s.mayStart 3 = true ∧ (s.circuit 3).dialogue.state = .quiet ∧
     s.firstAnswering 3 .t = some ⟨5, 0, 36⟩ ∧ s.entryStation ⟨5, 0, 36⟩ = some 2) ∧
    (let s := partyQueue Queues.empty fun d => { d with pollExpired := true }
     s.mayStart 3 = true ∧ s.firstAnswering 3 .t = none ∧ (s.circuit 3).dialogue.pollExpired = true ∧
     s.pool.suspension = false ∧ s.nextPoll 3 = some 2) ∧
    (let s := partyQueue { Queues.empty with r := ⟨[⟨5, 0, 36⟩], 36⟩ } id
     s.mayStart 3 = true ∧ s.firstAnswering 3 .t = none ∧ (s.circuit 3).dialogue.pollExpired = false ∧
     s.lowerChoice 3 = some ⟨5, 0, 36⟩ ∧ s.entryStation ⟨5, 0, 36⟩ = some 2) ∧
    (let s := partyQueue Queues.empty id
     s.mayStart 3 = true ∧ s.firstAnswering 3 .t = none ∧ (s.circuit 3).dialogue.pollExpired = false ∧
     s.lowerChoice 3 = none ∧ s.nextPoll 3 = some 2) ∧
    (let s := { partyQueue Queues.empty id with pool := { Pool.reset with suspension := true } }
     s.isParty 3 = true ∧ s.mayStart 3 = true ∧ s.firstAnswering 3 .t = none ∧ s.lowerChoice 3 = none ∧
     s.pool.suspension = true) ∧
    (∀ e ∈ [(DialogueState.calling, 3), (.pollSending, 3), (.calling, 4), (.pollSending, 4)],
      (let s := put (dialogueSends e.1 e.2)
       (s.circuit 3).line.transmitter = .sending 6 111 112 (some .dialogue) ∧ 112 ≤ 111 + 1 ∧
       s.isParty 3 = true ∧ s.inService 3 = true ∧ speedSettingInvalid (s.setting 3 1) = false ∧
       (s.circuit 3).send = .none ∧ (s.circuit 3).dialogue.selected = some 2 ∧
       (s.circuit 3).dialogue.state = e.1 ∧ (s.circuit 3).dialogue.sequencePos = e.2)) := by decide +kernel

/-- Circuit 3 diverting, with record 5 queued on it. -/
def diverting : CircuitState :=
  { queuedR with control := { ready.control with state := .held, diverting := true } }

theorem witness_DivertStepPlacesTheTakenCode :
    (let s := rec5 routed (put diverting)
     s.isDiverting 3 = true ∧ (s.queue 3 .r).entries = ⟨5, 0, 36⟩ :: [] ∧
     (∀ q ∈ Precedence.r.andAbove, q ≠ .r → (s.queue 3 q).entries = []) ∧ (s.message 5).rank = .r ∧
     s.delivery 5 0 = some delivery0 ∧ delivery0.codes = onePosition 0 ∧
     (s.message 5).interceptSet.getLsbD 0 = false ∧
     ((s.message 5).destinations[0]?.bind (s.otherTarget 3)) = none) ∧
    (let s := (rec5 routed (put diverting)).setShadow (offRoute ⟨8, 9⟩) 0x0012
     s.isDiverting 3 = true ∧ (s.queue 3 .r).entries = ⟨5, 0, 36⟩ :: [] ∧
     s.delivery 5 0 = some delivery0 ∧
     ((s.message 5).destinations[0]?.bind (s.otherTarget 3)) = some ⟨4, 0⟩ ∧
     (∀ j : SlotIdx, j ≠ 0 → s.delivery 5 j = none) ∧ ∀ j : SlotIdx, ¬ j < 0) ∧
    (let d : Delivery := { delivery0 with circuit := 4, codes := 2 }
     let s := (rec5 { routed with slots := routed.slots.set 1 (some d) } (put diverting)).setShadow
       (offRoute ⟨8, 9⟩) 0x0012
     s.delivery 5 1 = some d ∧ d.state = .queued ∧ s.isParty 4 = false ∧ (∀ j : SlotIdx, j < 1 → j = 0) ∧
     delivery0.circuit ≠ 4 ∧ ((s.message 5).destinations[0]?.bind (s.otherTarget 3)) = some ⟨4, 0⟩) ∧
    (∀ e ∈ [((0x0012 : Word), (none : Option Target)), (0x000E, none), (0x800E, some ⟨3, 1⟩), (0x800E, some ⟨4, 7⟩)],
      (let s := (State.reset.setShadow (offRoute ⟨8, 9⟩) e.1).setShadow (offRoute ⟨8, 9⟩ + 1)
         (if e.2 = some ⟨3, 1⟩ then 0x0023 else 0x00E4)
       s.route ⟨8, 9⟩ = .circuit ⟨if e.1 = 0x0012 then 4 else 3, 0⟩ e.2 0)) ∧
    State.reset.route ⟨8, 9⟩ = .unassigned ∧
    (let s := put { diverting with queues := .empty, divert := ⟨3, 2⟩ }
     s.isDiverting 3 = true ∧ ∀ p ∈ allPrecedences, (s.queue 3 p).entries = []) := by
  decide +kernel

theorem witness_ProcessorWritePassesToStore :
    (State.reset.granted ∧ State.reset.mapsLawful) ∧
    (0x20000 : Address).toNat / 131072 ≠ State.reset.strap.val ∧
    (∀ o ∈ [0x32, 0x3FF, 0xD48, 0xFFF, 0x3000, 0x3FFF],
      (0x32 ≤ o ∧ o < 0x400) ∨ (0xD48 ≤ o ∧ o < 0x1000) ∨ (0x3000 ≤ o ∧ o < 0x4000)) ∧
    (∀ o ∈ [0x4000, 0x1FFFF], 0x4000 ≤ o ∧ State.reset.owner ((o - 0x4000) / 32) = .processor) ∧
    (∀ o ∈ [1, 0xF, 0x20, 0x2B, 0x2D, 0x400, 0x7EF, 0x800, 0xD47],
      (1 ≤ o ∧ o < 0x10) ∨ (0x20 ≤ o ∧ o < 0x2C) ∨ o = 0x2D ∨
      (0x400 ≤ o ∧ o < 0x800 ∧ o % 32 < 16 ∧ o % 32 ≠ 1) ∨ (0x800 ≤ o ∧ o < 0xD48)) := by decide +kernel

theorem witness_SuppressedWriteRaisesOneTrap :
    State.reset.granted ∧ (0x1FFFF : Address).toNat / 131072 = State.reset.strap.val ∧
    (∀ o ∈ [0x10, 0x1F, 0x411, 0x7FF, 0x1000, 0x2FFF],
      (0x10 ≤ o ∧ o < 0x20) ∨ (0x400 ≤ o ∧ o < 0x800 ∧ 16 < o % 32) ∨ (0x1000 ≤ o ∧ o < 0x3000)) ∧
    (let s := State.reset.setOwner 3583 (.message 5)
     s.granted ∧ s.owner ((0x1FFFF - 0x4000) / 32) ≠ .processor) := by decide +kernel

theorem witness_SpeedSettingWriteIsCompared :
    (put ready).granted ∧ (put ready).mapsLawful ∧ (put ready).inService 3 = true ∧
    ((put ready).circuit 3).line.receiver = .hunting ∧ ((put ready).circuit 3).line.transmitter = .idle ∧
    speedSettingInvalid 0x0006 = true ∧ speedSettingInvalid 0x0025 = false := by decide +kernel

/-- A ring with 5 entries that wraps its end. -/
def ringOf (produce consume : Nat) : State :=
  { State.reset with reports :=
    { ReportWriter.reset with produce := produce, consume := consume, pending := [aReport], attention := true } }

theorem witness_ConsumeOrderMovesWithinTheSpan :
    (let s := ringOf 3 1022
     s.granted ∧ s.mapsLawful ∧ s.reportsLawful ∧ (s.reports.produce + 1024 - s.reports.consume) % 1024 = 5 ∧
     (3 + 1024 - 1022) % 1024 ≤ 5 ∧ ¬ (4 + 1024 - 1022) % 1024 ≤ 5 ∧ (1024 : Word).toNat > 1023) ∧
    (let s := ringOf 7 8
     s.granted ∧ s.mapsLawful ∧ s.reportsLawful ∧ s.reports.pending ≠ [] ∧
     (s.reports.produce + 1024 - s.reports.consume) % 1024 = 1023 ∧
     (after (.consumeOrder 9) s).reports.consume ≠ s.reports.consume) ∧
    ((inRun State.reset).arbiter.open = false ∧ (inRun State.reset).waiting = none ∧
     { inRun State.reset with waiting := some (.read 5) }.waiting ≠ none) :=
  ⟨by decide +kernel, by decide +kernel, by decide +kernel⟩

theorem witness_ReportJoinsTheListOrIsLost :
    (List.replicate 31 aReport).length < 32 ∧
    (let w : ReportWriter := { ReportWriter.reset with pending := List.replicate 32 aReport, lost := 65534 }
     32 ≤ w.pending.length ∧ w.lost < 65535) ∧
    (let w : ReportWriter := { ReportWriter.reset with pending := List.replicate 32 aReport, lost := 65535 }
     32 ≤ w.pending.length ∧ w.lost = 65535) := by decide

theorem witness_ReportRunWritesOneEntry :
    ((ringOf 3 1022).nextRun = some .report ∧ (ringOf 3 1022).reports.pending = aReport :: []) ∧
    (∀ made ∈ [0, 4], (let s := { inRun (ringOf 1023 1022) with arbiter := .granted .report made }
     s.arbiter = .granted .report made ∧ s.reports.inRun = some aReport ∧ s.reports.lawful ∧
     s.mapsLawful)) ∧
    (∀ slot channel, aReport.kind = .delivered slot channel → channel < 1024) :=
  ⟨by decide +kernel, by decide +kernel, fun _ _ h => by cases h⟩

theorem witness_MirrorAndClearingWritesAreWhole :
    (let s := dirty ((Vector.replicate 128 false).set 127 true) (Vector.replicate 32 true) true
     s.grantee s.waiting.isSome = some .mirrorWriter ∧ s.mapsLawful ∧ s.messageDirty[127] = true ∧
     ∀ r' : RecordIdx, r' < 127 → s.messageDirty[r'] = false) ∧
    (let s := dirty (Vector.replicate 128 false) ((Vector.replicate 32 false).set 31 true) true
     s.grantee s.waiting.isSome = some .mirrorWriter ∧ (∀ r : RecordIdx, s.messageDirty[r] = false) ∧
     s.circuitDirty[31] = true ∧ ∀ c' : Circuit, c' < 31 → s.circuitDirty[c'] = false) ∧
    (let s := dirty (Vector.replicate 128 false) (Vector.replicate 32 false) true
     s.grantee s.waiting.isSome = some .mirrorWriter ∧ (∀ r : RecordIdx, s.messageDirty[r] = false) ∧
     ∀ c : Circuit, s.circuitDirty[c] = false) ∧
    (let words := List.replicate 32 (1 : Word)
     let s := { State.reset with arbiter := .granted (.mirror (.record 127) words) 31 }
     s.arbiter = .granted (.mirror (.record 127) words) 31 ∧ words.length ≤ 32 ∧ s.mapsLawful) ∧
    (let s := { State.reset with pendingClear := (Vector.replicate 32 false).set 3 true }
     s.waiting = none ∧ s.grantee false = some .passage ∧ s.pendingClear[3] = true ∧
     (∀ c' : Circuit, c' < 3 → s.pendingClear[c'] = false) ∧ s.mapsLawful) ∧
    (let s := rec5 { routedActive with mutilated := 255 } (put { sending .text 2 20 with
       control := { ready.control with retryCount := 255 } })
     (s.message 5).mutilated ≤ 255 ∧ (s.circuit 3).control.retryCount ≤ 255 ∧
     (s.circuit 3).send.active = some (5, 0) ∧ (s.delivery 5 0).map Delivery.attempts = some 0 ∧
     ∀ j : SlotIdx, j ≠ 0 → s.delivery 5 j = none) := by decide +kernel

theorem witness_CircuitCommandIsCheckedInOrder :
    (∀ s ∈ [State.reset, put diverting, put ready, setting3 1 6 (setting3 0 1), setting3 0 2,
        put (party id), put { ready with control := { ready.control with holdPending := true } }],
      s.granted ∧ s.mapsLawful) ∧
    8 ≤ (8 : BitVec 8).toNat ∧ ((put diverting).circuit 3).control.diverting = true ∧
    ((put ready).circuit 3).control.diverting = false ∧
    ((put ready).circuit 3).control.state ∉ [CircuitMode.closed] ∧
    ((put ready).circuit 3).control.state = .ready ∧ ((put ready).circuit 3).control.holdPending = false ∧
    ((put { ready with control := { ready.control with holdPending := true } }).circuit 3).control.holdPending =
      true ∧
    (State.reset.circuit 3).control.state = .closed ∧ kindOf (State.reset.setting 3 0) = .unused ∧
    speedSettingInvalid ((setting3 1 6 (setting3 0 1)).setting 3 1) = true ∧
    (kindOf ((setting3 0 2).setting 3 0) = .party ∧
     ∀ n : Fin 8, bitSet ((setting3 0 2).setting 3 (6 + n.val)) 15 = false) ∧
    (put ready).isParty 3 = false ∧
    ((put (party id)).isParty 3 = true ∧ ((put (party id)).station 3 7).present = false) := by decide +kernel

theorem witness_OpenCopiesTheSettings :
    (∀ s ∈ [setting3 1 0x25 (setting3 0 1), setting3 13 0x8000 (setting3 0 2)],
      s.granted ∧ s.mapsLawful ∧ (s.circuit 3).control.state = .closed ∧
      (s.circuit 3).control.diverting = false ∧ kindOf (s.setting 3 0) ≠ .unused ∧
      speedSettingInvalid (s.setting 3 1) = false) ∧
    kindOf ((setting3 13 0x8000 (setting3 0 2)).setting 3 0) = .party ∧
    bitSet ((setting3 13 0x8000 (setting3 0 2)).setting 3 13) 15 = true := by decide +kernel

theorem witness_CloseReturnsTheDeliveryBeingSent :
    (let s := put ready
     s.granted ∧ s.mapsLawful ∧ (s.circuit 3).control.state ≠ .closed ∧
     (s.circuit 3).control.diverting = false ∧ s.isParty 3 = false ∧ (s.recogniser 3).state = .hunt ∧
     (s.circuit 3).send = .none) ∧
    (let s := rec5 routedActive (put (sending .text 2 20))
     s.granted ∧ s.mapsLawful ∧ (s.circuit 3).control.state ≠ .closed ∧
     (s.circuit 3).control.diverting = false ∧ s.isParty 3 = false ∧ (s.recogniser 3).state = .hunt ∧
     (s.circuit 3).send.active = some (5, 0) ∧
     s.delivery 5 0 = some { delivery0 with state := .active } ∧ delivery0.circuit = 3 ∧
     (s.circuit 3).send.pendingCancel = false ∧ (s.circuit 3).send.cause ≠ some .order ∧
     ∀ j : SlotIdx, j ≠ 0 → s.delivery 5 j = none) := by decide +kernel

theorem witness_HoldAndResumeChangeTheState :
    (∀ x ∈ [ready, sending .heading 0 36, opened .point .held,
        { sending .heading 0 36 with control := { ready.control with holdPending := true } }],
      (put x).granted ∧ (put x).mapsLawful ∧ x.control.diverting = false ∧
      speedSettingInvalid ((put x).setting 3 1) = false) ∧
    (ready.control.state = .ready ∧ ready.control.holdPending = false ∧ ready.send.phase = .idle) ∧
    ((sending .heading 0 36).control.state = .ready ∧ (sending .heading 0 36).send.phase ≠ .idle) ∧
    (opened .point .held).control.state = .held := by decide +kernel

theorem witness_ClearFaultBeginsTheLineCheck :
    (∀ m ∈ [CircuitMode.fault, .retryWait],
      (put (opened .point m)).granted ∧ (put (opened .point m)).mapsLawful ∧
      ((put (opened .point m)).circuit 3).control.state = m ∧
      ((put (opened .point m)).circuit 3).control.diverting = false) := by decide +kernel

theorem witness_DivertMarksTheCircuit :
    (∀ m ∈ [CircuitMode.held, .fault, .retryWait],
      (put (opened .point m)).granted ∧ (put (opened .point m)).mapsLawful ∧
      ((put (opened .point m)).circuit 3).control.state ∈ [CircuitMode.closed, .held, .fault, .retryWait] ∧
      ((put (opened .point m)).circuit 3).control.diverting = false) ∧
    (∀ p, ((put (opened .point .held)).queue 3 p).entries = []) ∧
    ((put { queuedR with control := (opened .point .held).control }).queue 3 .r).entries ≠ [] :=
  ⟨by decide +kernel, fun p => by cases p <;> decide +kernel, by decide +kernel⟩

theorem witness_StationResetMakesTheStationAnswer :
    (∀ a ∈ [true, false],
      (let s := put { party id with
         stations := (Vector.replicate 8 Station.reset).set 2 { station2 with answering := a } }
       s.granted ∧ s.mapsLawful ∧ s.inService 3 = true ∧ (s.circuit 3).control.diverting = false ∧
       s.isParty 3 = true ∧ (s.station 3 2).present = true ∧ (s.station 3 2).answering = a)) := by
  decide +kernel

theorem witness_LineCheckPassesAndBeginsAgain :
    (∀ k ∈ [Kind.point, .party],
      (let s := put { opened k .checking with control :=
         { (opened k .checking).control with markRun := 100 } }
       (s.circuit 3).control.state = .checking ∧ (s.circuit 3).control.markRun = 100 ∧
       speedSettingInvalid (s.setting 3 1) = false)) ∧
    (let s := put { opened .point .retryWait with control :=
       { (opened .point .retryWait).control with retryTimer := some 0 } }
     (s.circuit 3).control.state = .retryWait ∧ (s.circuit 3).control.retryTimer = some 0) := by
  decide +kernel

/-- Circuit 3 as given, whose receiver has reached the stop sample of a character. -/
def arrives (bits : RelayChar) (x : CircuitState) : CircuitState :=
  { x with line := { x.line with receiver := .assembling 95 bits } }

/-- A party circuit that receives a message of station 2 into record 5, at the stop sample of a character. -/
def inboundAt (bits : RelayChar) (f : Recogniser → Recogniser) : State :=
  let x := party fun d => { d with state := .inbound, selected := some 2 }
  rec5 filling (put (arrives bits { x with recogniser := f x.recogniser }))

/-- A character with the dialogue state, match position and poll reply it meets: a shift, a character that goes on,
any other in each state, the second R, N and the third H. -/
def answerCases : List (RelayChar × DialogueState × Nat × Option PollReply) :=
  [(5, .answerWait, 0, none), (6, .answerWait, 0, none), (23, .receiptWait, 0, none), (13, .pollWait, 0, none),
   (13, .pollWait, 1, some .traffic), (9, .answerWait, 1, none), (9, .receiptWait, 1, none), (9, .pollWait, 0, none),
   (23, .receiptWait, 1, none), (19, .pollWait, 1, some .nothing), (13, .pollWait, 2, some .traffic)]

/-- Circuit 3 at the stop sample of one of them, record 5 being sent to station 2. -/
def answering (e : RelayChar × DialogueState × Nat × Option PollReply) : State :=
  rec5 { routed with slots := (Vector.replicate 8 none).set 0 (some
      { delivery0 with state := .active, station := 2 }) }
    (put { arrives e.1 (party fun d =>
        { d with state := e.2.1, selected := some 2, matchPos := e.2.2.1, pollReply := e.2.2.2 }) with
      send := (sending .receipt 0 0).send })

theorem witness_PartyTimersExpire :
    (∀ d ∈ [DialogueState.answerWait, .pollWait],
      (let s := put (party fun x => { x with state := d, selected := some 2, answerTimer := some 0 })
       (s.circuit 3).dialogue.answerTimer = some 0 ∧ (s.circuit 3).dialogue.state = d ∧
       (s.circuit 3).dialogue.selected = some 2 ∧
       (s.circuit 3).control.effective.retryLimit ≤ min ((s.station 3 2).failures + 1) 7)) ∧
    (let s := put (party fun x => { x with state := .inbound, lineEndWait := true, answerTimer := some 0 })
     (s.circuit 3).dialogue.answerTimer = some 0 ∧ (s.circuit 3).dialogue.state = .inbound ∧
     (s.circuit 3).dialogue.lineEndWait = true) ∧
    ((put (party fun x => { x with pollTimer := some 0 })).circuit 3).dialogue.pollTimer = some 0 ∧
    (let s := inboundAt 10 fun x =>
       { x with state := .text, lineStart := true, filling := some 5, held := heldOf [10, 10, 10] }
     (s.circuit 3).line.receiver = .assembling 95 10 ∧ 95 ≤ 95 ∧ s.inService 3 = true ∧ s.isParty 3 = true ∧
     speedSettingInvalid (s.setting 3 1) = false ∧ (s.circuit 3).dialogue.state = .inbound ∧
     (s.recogniser 3).state = .text ∧ (s.recogniser 3).filling = some 5 ∧ (s.recogniser 3).discardCause = none ∧
     (s.recogniser 3).shift = .letters ∧ (s.recogniser 3).lineStart = true ∧
     ((s.recogniser 3).held.filter fun h => !h.isShift) = heldOf [10, 10, 10]) ∧
    (let s := inboundAt 1 id
     (s.circuit 3).line.receiver = .assembling 95 1 ∧ (s.recogniser 3).state = .hunt) ∧
    ((party fun x => { x with lineEndWait := true }).dialogue.lineEndWait = true) ∧
    (∀ position ∈ [0, 1], (let x := dialogueSends .replying position
      let s := put { x with dialogue := { x.dialogue with replyOwed := some .accepted } }
      (s.circuit 3).line.transmitter = .sending 6 111 112 (some .dialogue) ∧ 112 ≤ 111 + 1 ∧
      s.isParty 3 = true ∧ s.inService 3 = true ∧ speedSettingInvalid (s.setting 3 1) = false ∧
      (s.circuit 3).send = .none ∧ (s.circuit 3).dialogue.state = .replying ∧
      (s.circuit 3).dialogue.replyOwed = some .accepted ∧ (s.circuit 3).dialogue.sequencePos = position)) ∧
    (let s := inboundAt 1 fun x => { x with state := .text, filling := some 5, silence := some 0 }
     (s.recogniser 3).silence = some 0 ∧ s.isParty 3 = true ∧ (s.circuit 3).dialogue.state = .inbound ∧
     (s.circuit 3).dialogue.selected = some 2 ∧ (s.recogniser 3).state = .text ∧
     (s.recogniser 3).filling = some 5 ∧ (s.recogniser 3).held = [] ∧ (s.recogniser 3).discardCause = none) := by
  decide +kernel

theorem witness_SecondCallLetterStartsTheDelivery :
    (∀ q ∈ [Queues.empty, { Queues.empty with r := ⟨[⟨5, 0, 36⟩], 36⟩ }],
      (let x := party fun d => { d with state := .answerWait, selected := some 2, matchPos := 1 }
       let s := rec5 { routed with slots := (Vector.replicate 8 none).set 0 (some { delivery0 with station := 2 }) }
         (put { arrives 7 x with queues := q })
       (s.circuit 3).line.receiver = .assembling 95 (s.station 3 2).second ∧ 95 ≤ 95 ∧
       s.isParty 3 = true ∧ (s.circuit 3).control.state = .ready ∧
       speedSettingInvalid (s.setting 3 1) = false ∧ (s.circuit 3).dialogue.state = .answerWait ∧
       (s.circuit 3).dialogue.selected = some 2 ∧ (s.circuit 3).dialogue.matchPos = 1 ∧
       (s.circuit 3).dialogue.answerShift = .letters ∧ 6 ≤ (s.station 3 2).second.toNat ∧
       s.firstForStation 3 2 = q.r.entries.head?)) ∧
    (∀ e ∈ answerCases, (let s := answering e
       (s.circuit 3).line.receiver = .assembling 95 e.1 ∧ 95 ≤ 95 ∧ s.isParty 3 = true ∧ s.inService 3 = true ∧
       speedSettingInvalid (s.setting 3 1) = false ∧ (s.circuit 3).dialogue.selected = some 2 ∧
       (s.circuit 3).dialogue.state = e.2.1 ∧ (s.circuit 3).dialogue.matchPos = e.2.2.1 ∧
       (s.circuit 3).dialogue.pollReply = e.2.2.2 ∧ (s.circuit 3).dialogue.answerShift = .letters ∧
       (s.station 3 2).first = 6 ∧ (s.circuit 3).send.active = some (5, 0) ∧
       s.delivery 5 0 = some { delivery0 with state := .active, station := 2 } ∧ delivery0.circuit = 3 ∧
       (s.circuit 3).control.holdPending = false ∧ (∀ j : SlotIdx, j ≠ 0 → s.delivery 5 j = none) ∧
       s.lowestFree = some 0 ∧ s.suspensionLawful)) ∧
    ({ State.reset with messages := Vector.replicate 128 routed }.lowestFree = none) := by decide +kernel

/-- A point circuit in the heading of record 5, at the stop sample of a character. -/
def inHeading (bits : RelayChar) (f : Recogniser → Recogniser) : State :=
  rec5 filling (put (arriving bits fun x => f { x with lineStart := false, filling := some 5 }))

theorem witness_HeadingAndDestinationLinesAreRead :
    (∀ s ∈ [inHeading 3 id, inHeading 8 id],
      s.inService 3 = true ∧ s.isParty 3 = false ∧ (s.recogniser 3).filling = some 5 ∧
      speedSettingInvalid (s.setting 3 1) = false) ∧
    ((inHeading 3 id).circuit 3).line.receiver = .assembling 95 3 ∧ 95 ≤ 95 ∧
    (∀ p ∈ [HeadPos.afterSom false, .channel [9], .channel [9, 9], .channel [9, 9, 9], .afterChannel,
        .afterPrecedence true, .origin 6 none, .origin 6 (some 7), .afterOrigin],
      (let s := inHeading 3 fun x => { x with state := .headingLine, headPos := p }
       (s.recogniser 3).state = .headingLine ∧ (s.recogniser 3).headPos = p)) ∧
    (∀ state ∈ [RxState.skipHeading, .destLine],
      (let s := inHeading 1 fun x => { x with state := state }
       (s.recogniser 3).state = state ∧ (s.recogniser 3).lineStart = false)) ∧
    0 < 100 * 9 + 10 * 9 + 9 := by decide +kernel

end Sys2Proof.Tests
end

