-- ==== Sys2Proof/Proofs/Backlog.lean ====
section
/-! PROOF. The two inputs of the backlog estimate: the queued characters (R83) and the character time (R82). -/

namespace Sys2Proof.Machine

/-! ### The queued characters: each precedence adds its own queue to those above it -/

theorem State.queuedCharacters_t (s : State) (c : Circuit) :
    s.queuedCharacters c .t = (s.queue c .t).count := by
  simp [State.queuedCharacters, Precedence.andAbove]

theorem State.queuedCharacters_u (s : State) (c : Circuit) :
    s.queuedCharacters c .u = s.queuedCharacters c .t + (s.queue c .u).count := by
  simp [State.queuedCharacters, Precedence.andAbove]

theorem State.queuedCharacters_r (s : State) (c : Circuit) :
    s.queuedCharacters c .r = s.queuedCharacters c .u + (s.queue c .r).count := by
  simp [State.queuedCharacters, Precedence.andAbove, Nat.add_assoc]

theorem State.queuedCharacters_s (s : State) (c : Circuit) :
    s.queuedCharacters c .s = s.queuedCharacters c .r + (s.queue c .s).count := by
  simp [State.queuedCharacters, Precedence.andAbove, Nat.add_assoc]

/-! ### The character time: the table is the rounded quotient -/

/-- The speed of a speed code in hundredths of a baud, the table's second column in R82. -/
def baudHundredths (speed : Fin 6) : Nat := [4545, 5000, 5688, 7420, 7500, 10000].getD speed.val 0

/-- Every one of the 18 entries is the quotient of R82; rounding half up is written as the floor of
(2 · dividend + divisor) / (2 · divisor). -/
theorem characterTime_eq_rounded : ∀ (speed : Fin 6) (stop : Fin 3),
    characterTime speed stop =
      (2 * (14 + stop.val) * 500000 + baudHundredths speed) / (2 * baudHundredths speed) := by
  decide

end Sys2Proof.Machine

open Sys2Proof.Machine in
/-- Settles O35: the queues add up precedence by precedence, and the table read by the transmitter's codes holds the
rounded quotients. -/
theorem backlogInputsAreQueuesAndCharacterTime : Obligations.BacklogInputsAreQueuesAndCharacterTime := by
  unfold Obligations.BacklogInputsAreQueuesAndCharacterTime
  refine ⟨fun s c => ⟨s.queuedCharacters_t c, ?atU, ?atR, ?atS⟩, fun s c => ?time⟩
  case atU => rw [s.queuedCharacters_u, s.queuedCharacters_t]
  case atR => rw [s.queuedCharacters_r, s.queuedCharacters_u, s.queuedCharacters_t]
  case atS => rw [s.queuedCharacters_s, s.queuedCharacters_r, s.queuedCharacters_u, s.queuedCharacters_t]
  case time => exact characterTime_eq_rounded (s.circuit c).line.txSpeed (s.circuit c).line.txStop
end

section
/-! PROOF. CLEAR_FAULT (R149): its check, and its effect on the one circuit it names. -/

namespace Sys2Proof.Machine

/-- CLEAR_FAULT is refused by none of the checks on a FAULT or RETRY_WAIT circuit without the diverting mark (R141). -/
theorem State.commandRefusal_clearFault {s : State} {c : Circuit} (argument : BitVec 8)
    (hm : (s.circuit c).control.state = .fault ∨ (s.circuit c).control.state = .retryWait)
    (hd : (s.circuit c).control.diverting = false) :
    s.commandRefusal c .clearFault argument = none := by
  have allowed : (s.circuit c).control.allows .clearFault = true := by simpa [Controller.allows] using hm
  simp [State.commandRefusal, hd, allowed]

/-- A granted write of a command whose checks all pass: the word is stored, which changes no circuit, and the command
acts after it (R141, R163, R164). -/
theorem presentCommand_accepted {s : State} {c : Circuit} {code argument : BitVec 8} {cmd : CircuitCommand}
    (hg : s.granted) (hw : s.mapsLawful) (h0 : code ≠ 0) (h1 : circuitCommandOf code.toNat = some cmd)
    (h2 : s.commandRefusal c cmd argument = none) :
    ∃ w, s.tookCommand w c code argument [] ∧ w.circuit c = s.circuit c ∧
      presentCommand c code argument s = actOn c cmd argument w := by
  refine ⟨_, State.tookCommand_write hw c code argument, rfl, ?_⟩
  rw [presentCommand_granted hg]
  exact circuitOrder_accepted h0 h1 h2

/-- An accepted CLEAR_FAULT changes its circuit's line watch and circuit controller only, and raises CIRCUIT_STATE
(R17, R140, R144, R149). -/
theorem clearFault_spec (c : Circuit) (s : State) :
    s.onlyCircuit (clearFault c s) c [(.circuit c none, 0, .circuitState .checking .clearFault)] ∧
    (clearFault c s).circuit c =
      { s.circuit c with
        line := (s.circuit c).line.rearm
        control := { (s.circuit c).control with
          state := .checking, retryTimer := none, faults := .empty, retryCount := 0, markRun := 0
          checkCount := 0, noLineReported := false } } := by
  have enters (u : State) := setMode_spec c .checking .clearFault u (.inr (by decide))
  refine ⟨State.onlyCircuit_trans (l := [])
    (State.onlyCircuit_trans (s.onlyCircuit_setCircuit c _) (beginCheck_spec c _).1) (enters _).1, ?_⟩
  rw [clearFault, (enters _).2, (beginCheck_spec c _).2]
  simp

end Sys2Proof.Machine

open Sys2Proof.Machine in
/-- Settles O54: the word written changes no circuit, and the command's effect on its circuit follows the write. -/
theorem clearFaultBeginsTheLineCheck : Obligations.ClearFaultBeginsTheLineCheck := by
  unfold Obligations.ClearFaultBeginsTheLineCheck
  intro c argument s hgranted hmaps hmode hdiverting
  obtain ⟨w, writes, same, acts⟩ := presentCommand_accepted (code := 5) hgranted hmaps (by decide) rfl
    (State.commandRefusal_clearFault argument hmode hdiverting)
  obtain ⟨clears, cleared⟩ := clearFault_spec c w
  refine ⟨clearFault c w, congrArg Host.Outcome.next acts, State.tookCommand_trans writes clears, ?_⟩
  rw [cleared, same]
  rfl
end

section
/-! SUPPORT. Further rules of the shared operations: when a change leaves the dirty marks, what a change of one circuit
or one record leaves of the others, and what a list of reports leaves. -/

namespace Sys2Proof.Machine

variable (s : State) (c : Circuit) (r : RecordIdx)

/-! ### What each accessor leaves of a circuit, a record or a fill -/

@[simp] theorem State.circuit_setPool (p : Pool) : (s.setPool p).circuit c = s.circuit c := rfl

@[simp] theorem State.message_setPool (p : Pool) : (s.setPool p).message r = s.message r := rfl

@[simp] theorem State.fill_setPool (p : Pool) : (s.setPool p).fill r = s.fill r := rfl

@[simp] theorem State.circuit_setPost (w : Option Walk) (o : PostOutcome) : (s.setPost w o).circuit c = s.circuit c := rfl

@[simp] theorem State.message_setPost (w : Option Walk) (o : PostOutcome) : (s.setPost w o).message r = s.message r := rfl

@[simp] theorem State.fill_setPost (w : Option Walk) (o : PostOutcome) : (s.setPost w o).fill r = s.fill r := rfl

@[simp] theorem State.circuit_setFill (q : RecordIdx) (f : Fill) : (s.setFill q f).circuit c = s.circuit c := rfl

@[simp] theorem State.message_setFill (q : RecordIdx) (f : Fill) : (s.setFill q f).message r = s.message r := rfl

@[simp] theorem State.circuit_setOwner (b : Nat) (o : Owner) : (s.setOwner b o).circuit c = s.circuit c := rfl

@[simp] theorem State.message_setOwner (b : Nat) (o : Owner) : (s.setOwner b o).message r = s.message r := rfl

@[simp] theorem State.fill_setOwner (b : Nat) (o : Owner) : (s.setOwner b o).fill r = s.fill r := rfl

@[simp] theorem State.circuit_rehome (q : RecordIdx) (o : Owner) : (s.rehome q o).circuit c = s.circuit c := rfl

@[simp] theorem State.message_rehome (q : RecordIdx) (o : Owner) : (s.rehome q o).message r = s.message r := rfl

@[simp] theorem State.fill_rehome (q : RecordIdx) (o : Owner) : (s.rehome q o).fill r = s.fill r := rfl

@[simp] theorem State.message_setShadow (o : Nat) (v : Word) : (s.setShadow o v).message r = s.message r := rfl

@[simp] theorem State.fill_setShadow (o : Nat) (v : Word) : (s.setShadow o v).fill r = s.fill r := rfl

@[simp] theorem State.circuit_writeRelay (o : Nat) (v : Word) : (s.writeRelay o v).circuit c = s.circuit c := rfl

@[simp] theorem State.message_writeRelay (o : Nat) (v : Word) : (s.writeRelay o v).message r = s.message r := rfl

@[simp] theorem State.fill_writeRelay (o : Nat) (v : Word) : (s.writeRelay o v).fill r = s.fill r := rfl

@[simp] theorem State.fill_setCircuit (x : CircuitState) : (s.setCircuit c x).fill r = s.fill r := rfl

@[simp] theorem State.fill_setMessage (q : RecordIdx) (m : Message) : (s.setMessage q m).fill r = s.fill r := rfl

@[simp] theorem State.fill_raise (p : Place) (g : Word) (k : ReportKind) :
    (s.raise p g k).fill r = s.fill r := by simp [State.fill]

@[simp] theorem State.circuit_passWrite (a : Address) (v : Word) : (passWrite a v s).circuit c = s.circuit c := rfl

@[simp] theorem State.message_passWrite (a : Address) (v : Word) : (passWrite a v s).message r = s.message r := rfl

/-! ### What a processor write that passes leaves (R157) -/

@[simp] theorem State.passWrite_pending (a : Address) (v : Word) : (passWrite a v s).pending = s.pending := rfl
@[simp] theorem State.passWrite_divider (a : Address) (v : Word) : (passWrite a v s).divider = s.divider := rfl
@[simp] theorem State.passWrite_officeTicksDue (a : Address) (v : Word) : (passWrite a v s).officeTicksDue = s.officeTicksDue := rfl
@[simp] theorem State.passWrite_tickCount (a : Address) (v : Word) : (passWrite a v s).tickCount = s.tickCount := rfl
@[simp] theorem State.passWrite_minute (a : Address) (v : Word) : (passWrite a v s).minute = s.minute := rfl
@[simp] theorem State.passWrite_circuits (a : Address) (v : Word) : (passWrite a v s).circuits = s.circuits := rfl
@[simp] theorem State.passWrite_messages (a : Address) (v : Word) : (passWrite a v s).messages = s.messages := rfl
@[simp] theorem State.passWrite_fills (a : Address) (v : Word) : (passWrite a v s).fills = s.fills := rfl
@[simp] theorem State.passWrite_writer (a : Address) (v : Word) : (passWrite a v s).writer = s.writer := rfl
@[simp] theorem State.passWrite_pool (a : Address) (v : Word) : (passWrite a v s).pool = s.pool := rfl
@[simp] theorem State.passWrite_owners (a : Address) (v : Word) : (passWrite a v s).owners = s.owners := rfl
@[simp] theorem State.passWrite_postOutcome (a : Address) (v : Word) : (passWrite a v s).postOutcome = s.postOutcome := rfl
@[simp] theorem State.passWrite_walk (a : Address) (v : Word) : (passWrite a v s).walk = s.walk := rfl
@[simp] theorem State.passWrite_strap (a : Address) (v : Word) : (passWrite a v s).strap = s.strap := rfl
@[simp] theorem State.passWrite_strapBefore (a : Address) (v : Word) : (passWrite a v s).strapBefore = s.strapBefore := rfl
@[simp] theorem State.passWrite_waiting (a : Address) (v : Word) : (passWrite a v s).waiting = s.waiting := rfl
@[simp] theorem State.passWrite_readData (a : Address) (v : Word) : (passWrite a v s).readData = s.readData := rfl
@[simp] theorem State.passWrite_pendingClear (a : Address) (v : Word) : (passWrite a v s).pendingClear = s.pendingClear := rfl
@[simp] theorem State.passWrite_shadow (a : Address) (v : Word) : (passWrite a v s).shadow = s.shadow := rfl
@[simp] theorem State.passWrite_fetchLast (a : Address) (v : Word) : (passWrite a v s).fetchLast = s.fetchLast := rfl
@[simp] theorem State.passWrite_reports (a : Address) (v : Word) : (passWrite a v s).reports = s.reports := rfl
@[simp] theorem State.passWrite_messageDirty (a : Address) (v : Word) : (passWrite a v s).messageDirty = s.messageDirty := rfl
@[simp] theorem State.passWrite_circuitDirty (a : Address) (v : Word) : (passWrite a v s).circuitDirty = s.circuitDirty := rfl
@[simp] theorem State.passWrite_officeDirty (a : Address) (v : Word) : (passWrite a v s).officeDirty = s.officeDirty := rfl
@[simp] theorem State.passWrite_arbiter (a : Address) (v : Word) :
    (passWrite a v s).arbiter = .granted .passage 0 := rfl

/-! ### Dirty marks that stay (R179) -/

theorem State.setMessage_messageDirty_of_shown {m : Message} (h : m.shown = (s.message r).shown) :
    (s.setMessage r m).messageDirty = s.messageDirty := by
  simp [State.setMessage, h]

theorem State.setMessage_officeDirty_of_state {m : Message}
    (h : decide (m.state = .free) = decide ((s.message r).state = .free)) :
    (s.setMessage r m).officeDirty = s.officeDirty := by
  simp [State.setMessage, h]

theorem State.setCircuit_circuitDirty_of_shown {x : CircuitState} (h : x.shown = (s.circuit c).shown) :
    (s.setCircuit c x).circuitDirty = s.circuitDirty := by
  simp [State.setCircuit, h]

theorem State.raise_officeDirty_of_dirty (p : Place) (g : Word) (k : ReportKind) (h : s.officeDirty = true) :
    (s.raise p g k).officeDirty = true := by
  unfold State.raise
  split <;> simp [h]

theorem State.raiseAll_officeDirty_of_dirty (l : List (Place × Word × ReportKind)) (h : s.officeDirty = true) :
    (s.raiseAll l).officeDirty = true := by
  induction l generalizing s with
  | nil => exact h
  | cons e l ih => exact ih _ (s.raise_officeDirty_of_dirty _ _ _ h)

@[simp] theorem State.setMessage_officeDirty (m : Message) : (s.setMessage r m).officeDirty =
    (s.officeDirty || decide (¬ (m.state = .free ↔ (s.message r).state = .free))) := by
  by_cases h : m.state = .free <;> by_cases h' : (s.message r).state = .free <;> simp [State.setMessage, h, h']

/-! ### A report handed over, as a change of the report writer alone (R174) -/

/-- The report writer with one more report handed over. -/
def ReportWriter.handed (w : ReportWriter) (r : Report) : ReportWriter :=
  if w.pending.length < Config.pendingReports then { w with pending := w.pending ++ [r] }
  else { w with lost := min (w.lost + 1) 65535 }

/-- One more report changes the lost count. -/
def ReportWriter.losesNext (w : ReportWriter) : Bool :=
  decide (Config.pendingReports ≤ w.pending.length) && decide (w.lost < 65535)

theorem State.raise_reports_eq (p : Place) (g : Word) (k : ReportKind) :
    (s.raise p g k).reports = s.reports.handed ⟨p, g, k, s.minute⟩ := by
  unfold State.raise ReportWriter.handed
  split <;> rfl

theorem State.raise_officeDirty_eq (p : Place) (g : Word) (k : ReportKind) :
    (s.raise p g k).officeDirty = (s.officeDirty || s.reports.losesNext) := by
  unfold State.raise ReportWriter.losesNext
  split
  · rename_i h
    simp [Nat.not_le.mpr h]
  · rename_i h
    simp [Nat.not_lt.mp h]

/-! ### Other circuits and records -/

@[simp] theorem State.circuitDirty_setCircuit_ne {d : Circuit} (x : CircuitState) (h : d ≠ c) :
    (s.setCircuit c x).circuitDirty[d.val] = s.circuitDirty[d.val] := by
  have h' : c.val ≠ d.val := fun e => h (Fin.ext e.symm)
  simp [State.setCircuit, Vector.getElem_set_ne, h']

/-- One more change of circuit c is a change of circuit c. -/
theorem State.onlyCircuit.set {s u : State} {c : Circuit} {l : List (Place × Word × ReportKind)}
    (h : s.onlyCircuit u c l) (x : CircuitState) : s.onlyCircuit (u.setCircuit c x) c l := by
  simpa using State.onlyCircuit_trans h (u.onlyCircuit_setCircuit c x)

/-- One more report is one more report. -/
theorem State.onlyCircuit.report {s u : State} {c : Circuit} {l : List (Place × Word × ReportKind)}
    (h : s.onlyCircuit u c l) (p : Place) (g : Word) (k : ReportKind) :
    s.onlyCircuit (u.raise p g k) c (l ++ [(p, g, k)]) :=
  State.onlyCircuit_trans h (u.onlyCircuit_raise c p g k)

/-- A report raised after a processor write that passes: the word, the holder of the M-port, and the report. -/
theorem State.raise_passWrite {s : State} (lawful : s.mapsLawful) (a : Address) (v : Word) (p : Place) (g : Word)
    (k : ReportKind) :
    (passWrite a v s).raise p g k = { s with
      store := ((passWrite a v s).raise p g k).store, arbiter := .granted .passage 0
      reports := (s.raise p g k).reports, officeDirty := (s.raise p g k).officeDirty } ∧
    s.wroteWord ((passWrite a v s).raise p g k) a v := by
  refine ⟨?_, State.wroteWord_congr (State.wroteWord_passWrite lawful a v) (by simp)⟩
  simp [State.eq_iff, State.raise_reports_eq, State.raise_officeDirty_eq]

/-- A command that is a processor write that passes, and a report. -/
theorem exec_raise_passWrite {i : Instr} {s : State} {a : Address} {v : Word} {p : Place} {g : Word} {k : ReportKind}
    (lawful : s.mapsLawful) (h : exec i s = .next ((passWrite a v s).raise p g k)) :
    ∃ t, exec i s = .next t ∧
      t = { s with
        store := t.store, arbiter := .granted .passage 0
        reports := (s.raise p g k).reports, officeDirty := (s.raise p g k).officeDirty } ∧
      s.wroteWord t a v :=
  ⟨_, h, State.raise_passWrite lawful a v p g k⟩

end Sys2Proof.Machine
end

section
/-! PROOF. What a step keeps. Every command but a reset, a report run's two and MIRROR_RUN is made of changes through
the accessors (`Made.ofExec`); `Became` names the few other ways a state comes from another, and each invariant is
proved once over it. -/

namespace Sys2Proof.Machine

/-- The second state comes from the first by one step: by changes through the accessors, of which, where `leaves` is
set, a member's leaving its dirty set may be one, by a reset, or by the start or the end of a report run. -/
inductive Became (leaves : Bool) (s : State) : State → Prop
  | made {t : State} (h : Made false s t) : Became leaves s t
  | left {t u : State} (m : MirrorMember) (hl : leaves = true) (h : Made false s t)
      (h' : Made false (t.mirrorLeave m) u) : Became leaves s u
  | reset (strap : Fin 8) (shadow : Sparse (Option Word)) (table : Vector Message 128) (clear : Vector Bool 32)
      (h : shadow = [] ∨ shadow = s.shadow) : Became leaves s (resetWith strap shadow table clear s)
  | reportGranted (h : s.nextRun = some .report) : Became leaves s (grantRun .report s)
  | reportWritten (made : Nat) (h : s.arbiter = .granted .report made) :
      Became leaves s { s with store := (endRun .report made s).store, arbiter := .free, reports := s.reports.written }

/-! ### The shape of a step -/

variable {leaves : Bool}

theorem reportWriteStart_became (s : State) : Became leaves s (reportWriteStart s) := by
  unfold reportWriteStart
  split
  · exact .reportGranted ‹_›
  · exact .made .refl

theorem reportWriteDone_became (s : State) : Became leaves s (reportWriteDone s) := by
  unfold reportWriteDone
  split
  · rename_i made h
    dsimp only
    rw [endRun_eq]
    exact .reportWritten made h
  · exact .made .refl

theorem relayReset_became (strap : Fin 8) (s : State) : Became leaves s (relayReset strap s) := by
  unfold relayReset powerOn
  split
  · exact .reset _ _ _ _ (.inr rfl)
  · exact .reset _ _ _ _ (.inl rfl)

/-- Only a run of the mirror writer makes MIRROR_RUN due. -/
theorem mirrorRun_became (s : State) : Became true s (mirrorRun s) := by
  have mirrors : ∀ {run : Run} {f : State → State},
      (match run with | .mirror _ _ => some id | _ => none : Option (State → State)) = some f →
      f = id ∧ ∃ m words, run = .mirror m words := by
    intro run f h
    cases run with
    | mirror m words => exact ⟨(Option.some.inj h).symm, m, words, rfl⟩
    | _ => cases h
  rcases onRun_cases (fun | .mirror _ _ => some id | _ => none) s with
    e | ⟨run, made, f, ha, hf, e⟩ | ⟨run, f, hn, hf, e⟩
  · exact (show mirrorRun s = s from e).symm ▸ .made .refl
  · obtain ⟨rfl, m, words, rfl⟩ := mirrors hf
    exact (show mirrorRun s = _ from e) ▸ .made (Made.refl.endRun (by rw [ha]; rfl))
  · obtain ⟨rfl, m, words, rfl⟩ := mirrors hf
    have granted : Made false s { s with arbiter := .granted (.mirror m words) 0 } :=
      Made.refl.port _ (Arbiter.reporting_of_open (State.open_of_nextRun hn)).symm
    exact (show mirrorRun s = _ from e) ▸ .left m rfl granted (Made.refl.endRun (by cases m <;> rfl))

/-- Every command completes, and but for MIRROR_RUN no member leaves its dirty set. -/
theorem exec_became (i : Instr) (s : State) (hl : i = .mirrorRun → leaves = true) :
    ∃ t, exec i s = .next t ∧ Became leaves s t := by
  by_cases hp : ∃ strap, i = .powerOn strap
  · obtain ⟨strap, rfl⟩ := hp
    exact ⟨_, rfl, .reset strap _ _ _ (.inl rfl)⟩
  by_cases hr : ∃ strap, i = .relayReset strap
  · obtain ⟨strap, rfl⟩ := hr
    exact ⟨_, rfl, relayReset_became strap s⟩
  by_cases hs : i = .reportWriteStart
  · subst hs
    exact ⟨_, rfl, reportWriteStart_became s⟩
  by_cases hd : i = .reportWriteDone
  · subst hd
    exact ⟨_, rfl, reportWriteDone_became s⟩
  by_cases hm : i = .mirrorRun
  · subst hm
    rw [hl rfl]
    exact ⟨_, rfl, mirrorRun_became s⟩
  obtain ⟨t, e, h⟩ := Made.ofExec i s (fun strap e => hp ⟨strap, e⟩) (fun strap e => hr ⟨strap, e⟩) hs hd hm
  exact ⟨t, e, .made h⟩

theorem idleCycle_became (s : State) : Became true s (idleCycle s) := by
  obtain ⟨t, made, e | ⟨m, e⟩⟩ := (Made.refl : Made false s s).idleCycle
  · exact e ▸ .made made
  · exact e ▸ .left m rfl made .refl

/-- What every way of one state's coming from another keeps, and the queue does not bear on, every step keeps. -/
theorem step_keeps {P : State → Prop} (became : ∀ s t, Became true s t → P s → P t)
    (queue : ∀ (s : State) rest, P s → P { s with pending := rest }) (s t : State) (h : P s)
    (hs : step s = .next t) : P t := by
  unfold step at hs
  split at hs
  · injection hs with e
    exact e ▸ became _ _ (idleCycle_became s) h
  · rename_i c rest _
    obtain ⟨u, e, k⟩ := exec_became c { s with pending := rest } fun _ => rfl
    rw [e] at hs
    injection hs with e
    exact e ▸ became _ _ k (queue s rest h)

/-! ### Resets, report runs and the dirty sets -/

/-- A member that leaves its dirty set changes nothing but the marks. -/
theorem State.mirrorLeave_eq (s : State) (m : MirrorMember) :
    s.mirrorLeave m = { s with
      messageDirty := (s.mirrorLeave m).messageDirty, circuitDirty := (s.mirrorLeave m).circuitDirty
      officeDirty := (s.mirrorLeave m).officeDirty } := by
  cases m <;> rfl

/-- A reset leaves the store but for the cycle that was on the M-port. -/
theorem abandonRun_eq (s : State) : abandonRun s = { s with store := (abandonRun s).store } := by
  unfold abandonRun
  split
  · rfl
  · rfl
  · exact portWrite_eq _ _ s

theorem abandonRun_made (s : State) : Made false s (abandonRun s) := by
  unfold abandonRun
  split
  · exact .refl
  · exact .refl
  · exact Made.refl.makeWrites

theorem resetWith_circuit (strap : Fin 8) (shadow : Sparse (Option Word)) (table : Vector Message 128)
    (clear : Vector Bool 32) (s : State) (c : Circuit) :
    (resetWith strap shadow table clear s).circuit c = (s.circuit c).afterReset := by
  unfold resetWith
  rw [abandonRun_eq]
  simp [State.circuit]

theorem Became.pending_eq {s t : State} (h : Became leaves s t) : t.pending = s.pending := by
  cases h with
  | made h => exact h.pending_eq
  | left m _ h h' => rw [h'.pending_eq, State.mirrorLeave_eq]; exact h.pending_eq
  | reset strap shadow table clear _ => exact (abandonRun_made s).pending_eq
  | reportGranted _ => rfl
  | reportWritten made _ => rfl

theorem Became.mapsLawful {s t : State} (h : Became leaves s t) (l : s.mapsLawful) : t.mapsLawful := by
  cases h with
  | made h => exact h.mapsLawful l
  | left m _ h h' =>
    refine h'.mapsLawful ?_
    rw [State.mirrorLeave_eq]
    exact h.mapsLawful l
  | reset strap shadow table clear h =>
    refine ⟨((abandonRun_made s).mapsLawful l).1, ?_, rfl⟩
    rcases h with rfl | rfl
    · rfl
    · exact l.2.1
  | reportGranted _ => exact l
  | reportWritten made _ => exact ⟨((Made.refl.makeWrites : Made false s _).mapsLawful l).1, l.2⟩

/-- The receivers of a reset part are STOPPED on circuits that are CLOSED (R3, R139). -/
theorem CircuitState.afterReset_lawful (x : CircuitState) : x.afterReset.lawful :=
  ⟨⟨fun _ => rfl, fun _ => rfl⟩, fun h => nomatch h⟩

theorem Became.circuitsLawful {s t : State} (h : Became leaves s t) (l : s.circuitsLawful) : t.circuitsLawful := by
  have same : ∀ {s t : State}, t.circuits = s.circuits → s.circuitsLawful → t.circuitsLawful := by
    intro s t e h c
    simpa only [State.circuit, e] using h c
  cases h with
  | made h => exact h.circuitsLawful l
  | left m _ h h' => exact h'.circuitsLawful (same (by rw [State.mirrorLeave_eq]) (h.circuitsLawful l))
  | reset strap shadow table clear _ =>
    intro c
    rw [resetWith_circuit]
    exact CircuitState.afterReset_lawful _
  | reportGranted _ => exact l
  | reportWritten made _ => exact l

/-- The report writer has a run granted only where a report is pending and the ring has room (R175). -/
theorem State.runReady_of_nextRun {s : State} (h : s.nextRun = some .report) : s.reports.runReady = true := by
  obtain ⟨q, hq, hr⟩ := State.nextRun_eq_some.mp h
  obtain rfl : q = .reportWriter := by
    cases q with
    | reportWriter => rfl
    | passage => cases hr
    | blockWriter => simp [State.runOf] at hr
    | fetcher =>
      simp only [State.runOf, State.fetchRun] at hr
      cases hf : s.nextFetch with
      | none => simp [hf] at hr
      | some c =>
        obtain ⟨f, -, e⟩ := by simpa [hf] using hr
        split at e <;> cases e
    | poolUnit =>
      simp only [State.runOf, State.poolRun] at hr
      split at hr <;> simp at hr
    | mirrorWriter => simp [State.runOf, State.mirrorRun] at hr
  simp only [State.grantee] at hq
  split at hq
  · cases hq
  split at hq
  · cases hq
  split at hq
  · cases hq
  exact (List.find?_some hq : s.hasRun s.waiting.isSome .reportWriter = true)

/-- A granted report run takes the head of a list that is not empty. -/
theorem ReportWriter.granted_inRun {w : ReportWriter} (h : w.runReady = true) :
    w.granted.inRun.isSome = true ∧ w.unconsumed < 1023 := by
  simp only [ReportWriter.runReady, Bool.and_eq_true, decide_eq_true_eq, Bool.not_eq_true'] at h
  refine ⟨?_, h.2⟩
  cases hp : w.pending with
  | nil => simp [hp] at h
  | cons r rest => simp [ReportWriter.granted, hp]

/-- With room in the ring the next produce index is not the consume index (R175, R177). -/
theorem ReportWriter.written_lawful {w : ReportWriter} (h : w.lawful) (room : w.unconsumed < 1023) :
    w.written.lawful := by
  obtain ⟨hp, hc, hn, hl, -⟩ := h
  simp only [ReportWriter.unconsumed, Config.ringEntries] at room
  refine ⟨Nat.mod_lt _ (by decide), hc, hn, hl, ?_⟩
  have : w.consume ≠ (w.produce + 1) % 1024 := by omega
  simp [ReportWriter.written, ReportWriter.nextProduce, Config.ringEntries, this]

theorem ReportWriter.reset_lawful : ReportWriter.reset.lawful := by decide

theorem Became.reportsLawful {s t : State} (h : Became leaves s t) (l : s.reportsLawful) : t.reportsLawful := by
  cases h with
  | made h => exact h.reportsLawful l
  | left m _ h h' =>
    refine h'.reportsLawful ?_
    rw [State.mirrorLeave_eq]
    exact h.reportsLawful l
  | reset strap shadow table clear _ =>
    exact ⟨ReportWriter.reset_lawful, rfl, fun h => nomatch h⟩
  | reportGranted h =>
    obtain ⟨⟨hp, hc, hn, hl, ha⟩, -, -⟩ := l
    obtain ⟨inRun, room⟩ := ReportWriter.granted_inRun (State.runReady_of_nextRun h)
    exact ⟨⟨hp, hc, by simp [grantRun, ReportWriter.granted]; omega, hl, ha⟩, inRun, fun _ => room⟩
  | reportWritten made h =>
    obtain ⟨hw, -, room⟩ := l
    exact ⟨ReportWriter.written_lawful hw (room (by rw [h]; rfl)), rfl, fun h => nomatch h⟩

/-- Every mark is set after a reset (R179), and a report run changes no field shown but the produce index. -/
theorem Became.marksChanges {s t : State} (h : Became false s t) (l : s.reports.lost ≤ 65535) : s.marksChanges t := by
  have shown : ∀ {s : State} (a : Arbiter) (w : ReportWriter) (m : Sparse Word), w.lost = s.reports.lost →
      s.marksChanges { s with arbiter := a, reports := w, store := m } := by
    intro s a w m hw
    refine State.marksChanges_of (fun _ => rfl) rfl rfl rfl fun e => e.resolve_right fun k => k ?_
    simp only [State.officeWords, hw]
    rfl
  cases h with
  | made h => exact h.marksChanges l
  | left m hl _ _ => cases hl
  | reset strap shadow table clear _ =>
    exact ⟨fun c _ => by simp [resetWith, State.reset], fun r _ => by simp [resetWith, State.reset], fun _ => rfl⟩
  | reportGranted _ => exact shown (.granted .report 0) s.reports.granted s.store rfl
  | reportWritten made _ => exact shown .free s.reports.written _ rfl

/-! ### The message table at reset -/

theorem State.freeCount_of_free {s : State} (h : ∀ r, (s.message r).state = .free) : s.freeCount = 128 := by
  have all : ∀ m ∈ s.messages.toList, decide (m.state = .free) = true := by
    intro m hm
    obtain ⟨i, hi, rfl⟩ := List.getElem_of_mem hm
    have hi' : i < 128 := by simpa using hi
    simpa [State.message] using h ⟨i, hi'⟩
  rw [State.freeCount, List.countP_eq_length.mpr all, Vector.length_toList]

theorem Message.powerOnTable_free (r : RecordIdx) : (State.reset.message r).state = .free := by
  simp only [State.message, State.reset, Message.powerOnTable, Fin.getElem_fin, Vector.getElem_set]
  split
  · rfl
  · simp [Message.free]

end Sys2Proof.Machine

open Sys2Proof Sys2Proof.Machine

/-- Settles O5: the invariant is kept by each way of one state's coming from another. -/
theorem stepKeepsReportsLawful : Obligations.StepKeepsReportsLawful :=
  step_keeps (fun _ _ h => h.reportsLawful) fun _ _ h => h

/-- Settles O6. -/
theorem stepKeepsMapsLawful : Obligations.StepKeepsMapsLawful :=
  step_keeps (fun _ _ h => h.mapsLawful) fun _ _ h => h

/-- Settles O7. -/
theorem stepKeepsCircuitsLawful : Obligations.StepKeepsCircuitsLawful :=
  step_keeps (fun _ _ h => h.circuitsLawful) fun _ _ h => h

/-- Settles O8. -/
theorem everyShownChangeIsMarkedDirty : Obligations.EveryShownChangeIsMarkedDirty := by
  unfold Obligations.EveryShownChangeIsMarkedDirty
  intro i s t l hm e
  obtain ⟨⟨-, -, -, lost, -⟩, -, -⟩ := l
  obtain ⟨u, eu, h⟩ := exec_became (leaves := false) i s fun e => absurd e hm
  obtain rfl : t = u := Host.Outcome.next.inj (e.symm.trans eu)
  exact h.marksChanges lost

/-- Settles O3. -/
theorem everyCommandCompletesAndKeepsTheQueue : Obligations.EveryCommandCompletesAndKeepsTheQueue := by
  unfold Obligations.EveryCommandCompletesAndKeepsTheQueue
  intro c s
  obtain ⟨t, e, h⟩ := exec_became (leaves := true) c s fun _ => rfl
  exact ⟨t, e, h.pending_eq⟩

/-- Settles O1. -/
theorem stepTakesFrontCommand : Obligations.StepTakesFrontCommand := by
  unfold Obligations.StepTakesFrontCommand
  intro c rest s h
  simp only [step, h]

/-- Settles O4: each law holds of the reset values by evaluation. -/
theorem resetMeetsInvariants : Obligations.ResetMeetsInvariants := by
  unfold Obligations.ResetMeetsInvariants
  have circuits : State.reset.circuitsLawful := by
    intro c
    have e : State.reset.circuit c = CircuitState.reset := by simp [State.circuit, State.reset]
    rw [e]
    exact CircuitState.afterReset_lawful .reset
  have suspension : State.reset.suspensionLawful := by
    unfold State.suspensionLawful State.suspendedNow
    rw [State.freeCount_of_free Message.powerOnTable_free]
    rfl
  exact ⟨⟨ReportWriter.reset_lawful, rfl, fun h => nomatch h⟩, ⟨rfl, rfl, rfl⟩, circuits, suspension⟩
end

section
/-! PROOF. The ticks that reach the whole part, the resets, and the report that joins the pending list. -/

namespace Sys2Proof.Machine

/-! ### The minute tick -/

/-- The overdue mark is not shown, so a record reported overdue is not dirtied. -/
theorem checkOverdue_eq {s : State} (r : RecordIdx) (ho : s.officeDirty = true) :
    checkOverdue s r = { s with
      messages := (checkOverdue s r).messages
      reports := (s.raiseAll (if s.isOverdue r then [(.office, s.tag r, .overdue)] else [])).reports } := by
  unfold checkOverdue
  split
  · have shown : ∀ u : State, (u.updMessage r fun m => { m with overdueReported := true }).messageDirty =
        u.messageDirty := fun u => u.setMessage_messageDirty_of_shown r rfl
    have office : ∀ u : State, (u.updMessage r fun m => { m with overdueReported := true }).officeDirty =
        u.officeDirty := fun u => u.setMessage_officeDirty_of_state r rfl
    rw [State.eq_iff, shown, office, State.raise_officeDirty_of_dirty _ _ _ _ ho, ho]
    simp
  · simp

theorem message_checkOverdue (s : State) (a r : RecordIdx) :
    (checkOverdue s a).message r =
      if r = a ∧ s.isOverdue r = true then { s.message r with overdueReported := true } else s.message r := by
  unfold checkOverdue
  by_cases h : r = a
  · subst h
    split
    · rename_i hr
      simp [hr]
    · rename_i hr
      simp [hr]
  · split
    · simp [h, State.message_setMessage_ne]
    · simp [h]

/-- A check of another record does not bear on a record's own. -/
theorem isOverdue_checkOverdue {s : State} (a : RecordIdx) {r : RecordIdx} (h : r ≠ a) (ho : s.officeDirty = true) :
    (checkOverdue s a).isOverdue r = s.isOverdue r ∧ (checkOverdue s a).tag r = s.tag r := by
  have m : (checkOverdue s a).message r = s.message r := by simp [message_checkOverdue, h]
  have e := checkOverdue_eq a ho
  unfold State.isOverdue State.tag State.overdueLimit State.shadowAt
  rw [m]
  rw [e]
  exact ⟨rfl, rfl⟩

/-- The checks of several records: each reports its own once, in their order. -/
theorem checkOverdue_foldl (l : List RecordIdx) (hl : l.Nodup) {s : State} (ho : s.officeDirty = true) :
    l.foldl checkOverdue s = { s with
      messages := (l.foldl checkOverdue s).messages
      reports := (s.raiseAll ((l.filter s.isOverdue).map fun r => (.office, s.tag r, .overdue))).reports } ∧
    ∀ r, (l.foldl checkOverdue s).message r =
      if r ∈ l ∧ s.isOverdue r = true then { s.message r with overdueReported := true } else s.message r := by
  induction l generalizing s with
  | nil => exact ⟨rfl, fun r => by simp⟩
  | cons a l ih =>
    obtain ⟨ha, hl⟩ := List.nodup_cons.mp hl
    have e := checkOverdue_eq a ho
    have apart : ∀ r ∈ l, r ≠ a := fun r hr e => ha (e ▸ hr)
    have filtered : l.filter (checkOverdue s a).isOverdue = l.filter s.isOverdue :=
      List.filter_congr fun r hr => (isOverdue_checkOverdue a (apart r hr) ho).1
    have tags : (l.filter s.isOverdue).map (fun r => (Place.office, (checkOverdue s a).tag r, ReportKind.overdue)) =
        (l.filter s.isOverdue).map fun r => (.office, s.tag r, .overdue) :=
      List.map_congr_left fun r hr => by
        rw [(isOverdue_checkOverdue a (apart r (List.mem_of_mem_filter hr)) ho).2]
    obtain ⟨rest, each⟩ := ih hl (s := checkOverdue s a) (by rw [e]; exact ho)
    refine ⟨?_, fun r => ?_⟩
    · rw [filtered, tags] at rest
      have reports := (State.raiseAll_congr ((l.filter s.isOverdue).map fun r => (.office, s.tag r, .overdue))
        (s := checkOverdue s a)
        (t := s.raiseAll (if s.isOverdue a then [(.office, s.tag a, .overdue)] else []))
        (by rw [e]) (by rw [e]; exact (State.raiseAll_officeDirty_of_dirty _ _ ho).symm ▸ ho)
        (by rw [e]; simp)).1
      rw [← State.raiseAll_append] at reports
      have listed : (if s.isOverdue a then [(Place.office, s.tag a, ReportKind.overdue)] else []) ++
          (l.filter s.isOverdue).map (fun r => (Place.office, s.tag r, ReportKind.overdue)) =
          ((a :: l).filter s.isOverdue).map fun r => (.office, s.tag r, .overdue) := by
        by_cases h : s.isOverdue a = true <;> simp [h]
      have outer : ∀ m w, ({ checkOverdue s a with messages := m, reports := w } : State) =
          { s with messages := m, reports := w } := fun m w => by rw [e]
      rw [reports, listed, outer] at rest
      exact rest
    · rw [List.foldl_cons, each, message_checkOverdue]
      by_cases hr : r = a
      · subst hr
        simp [ha]
      · have same := (isOverdue_checkOverdue a hr ho).1
        simp [hr, same]

theorem officeTick_of_lt {s : State} (receive loop : Circuit → Bool) (h : s.tickCount < 5999) :
    officeTick receive loop s = timersTick receive loop (s.tickCount + 1) s :=
  if_pos (Nat.succ_lt_succ h)

theorem officeTick_of_le {s : State} (receive loop : Circuit → Bool) (h : 5999 ≤ s.tickCount) :
    officeTick receive loop s = minuteTick (timersTick receive loop 0 s) :=
  if_neg (by simp only [Config.ticksPerMinute]; omega)

theorem circuit_minuteTick (s : State) (c : Circuit) : (minuteTick s).circuit c = s.circuit c := by
  rw [show minuteTick s = _ from (checkOverdue_foldl allRecords (List.nodup_finRange 128) rfl).1]
  rfl

/-- The two watches of an office tick do not bear on each other. -/
theorem LineUnit.officeTick_eq (l : LineUnit) (n : Nat) (mark current : Bool) :
    l.officeTick n mark current = { l with
      openCount := (l.watchOpen n mark).openCount, loopCount := (l.watchLoop current).loopCount
      loopDetector := (l.watchLoop current).loopDetector, receiveIn := mark, loopIn := current } := by
  have opens : l.watchOpen n mark = { l with openCount := (l.watchOpen n mark).openCount } := by
    unfold LineUnit.watchOpen
    split <;> rfl
  rw [LineUnit.officeTick, opens]
  unfold LineUnit.watchLoop LineUnit.loopTripDue
  (repeat' split) <;> rfl

/-- The open-receive count below its limit (R14). -/
theorem LineUnit.watchOpen_below (l : LineUnit) {n : Nat} (mark : Bool) (h : l.openCount < n) :
    (l.watchOpen n mark).openCount = if mark then 0 else l.openCount + 1 := by
  have due : l.openTripDue n = false := by simp [LineUnit.openTripDue, h]
  have least : min (l.openCount + 1) n = l.openCount + 1 := by omega
  simp [LineUnit.watchOpen, due, least]

/-- The open-receive count at its limit: it stands until the trip is taken (R14, log 2). -/
theorem LineUnit.watchOpen_limit (l : LineUnit) {n : Nat} (mark : Bool) (h : n ≤ l.openCount) :
    (l.watchOpen n mark).openCount =
      if l.openDetector = .armed then l.openCount else if mark then 0 else n := by
  have least : min (l.openCount + 1) n = n := by omega
  by_cases armed : l.openDetector = .armed <;> simp [LineUnit.watchOpen, LineUnit.openTripDue, h, armed, least]

/-- The send-loop count of an armed detector below its limit (R15). -/
theorem LineUnit.watchLoop_armed (l : LineUnit) (current : Bool) (armed : l.loopDetector = .armed)
    (h : l.loopCount < 10) :
    l.watchLoop current = { l with loopCount :=
      if l.transmitter.mark then (if current then 0 else l.loopCount + 1) else l.loopCount } := by
  have least : min (l.loopCount + 1) 10 = l.loopCount + 1 := by omega
  have due : l.loopTripDue = false := by simp [LineUnit.loopTripDue, h]
  rw [LineUnit.watchLoop, if_neg (by simp [due]), if_neg (by simp [armed]), least]
  split <;> rfl

/-- A send-loop trip that is due keeps its count (R15, log 2). -/
theorem LineUnit.watchLoop_due (l : LineUnit) (current : Bool) (armed : l.loopDetector = .armed)
    (h : 10 ≤ l.loopCount) : l.watchLoop current = l := by
  simp [LineUnit.watchLoop, LineUnit.loopTripDue, armed, h]

/-- Current re-arms a tripped send-loop detector; without it the count goes on (R15). -/
theorem LineUnit.watchLoop_tripped (l : LineUnit) (current : Bool) (tripped : l.loopDetector = .tripped) :
    l.watchLoop current =
      if current then { l with loopDetector := .armed, loopCount := 0 }
      else if l.transmitter.mark then { l with loopCount := min (l.loopCount + 1) 10 } else l := by
  cases current <;> simp [LineUnit.watchLoop, LineUnit.loopTripDue, tripped]

/-- Nothing of a line check goes on outside CHECKING, after a pass, or with a NO_LINE that is due (R144). -/
theorem Controller.checkTick_stands {k : Controller} (mark current : Bool)
    (h : k.state ≠ .checking ∨ 100 ≤ k.markRun ∨ k.noLineDue = true) : k.checkTick mark current = k := by
  refine if_neg fun go => ?_
  simp only [Bool.and_eq_true, decide_eq_true_eq, Bool.not_eq_true'] at go
  rcases h with h | h | h
  · exact h go.1.1
  · exact absurd go.1.2 (Nat.not_lt.mpr h)
  · rw [go.2] at h
    cases h

/-- A line check that goes on (R144). -/
theorem Controller.checkTick_goes {k : Controller} (mark current : Bool) (hs : k.state = .checking)
    (hm : k.markRun < 100) (hn : k.noLineDue = false) :
    k.checkTick mark current = { k with
      checkCount := min (k.checkCount + 1) 1000
      markRun := if mark && current then k.markRun + 1 else 0 } :=
  if_pos (by simp [hs, hm, hn])

/-! ### Resets -/

theorem abandonRun_open {s : State} (h : s.arbiter.open = true) : abandonRun s = s := by
  unfold abandonRun
  rcases s.arbiter.open_iff.mp h with e | ⟨made, e⟩ <;> rw [e]

theorem abandonRun_granted {s : State} {run : Run} {made : Nat} (h : s.arbiter = .granted run made)
    (hr : run ≠ .passage) : abandonRun s = makeWrites (((s.runWrites run).drop made).take 1) s := by
  unfold abandonRun
  rw [h]
  cases run with
  | passage => exact absurd rfl hr
  | _ => rfl

/-- The fields of a state after a reset under a table of FREE records. -/
theorem resetWith_eq (strap : Fin 8) (shadow : Sparse (Option Word)) {table : Vector Message 128}
    (clear : Vector Bool 32) (s : State) (free : ∀ r : RecordIdx, (table[r]).state = .free) :
    resetWith strap shadow table clear s = { State.reset with
      pending := s.pending, circuits := (resetWith strap shadow table clear s).circuits, messages := table
      strap := strap, strapBefore := strap, waiting := s.waiting, readData := s.readData, pendingClear := clear
      shadow := shadow, store := (abandonRun s).store
      pool := { Pool.reset with
        suspension := decide (0 < poolReserveOf ((Sparse.get none shadow offReserve).getD 0)) } } := by
  have suspended : (resetWith strap shadow table clear s).pool.suspension =
      decide (0 < poolReserveOf ((Sparse.get none shadow offReserve).getD 0)) := by
    have count : ∀ u : State, u.messages = table → u.freeCount = 128 := fun u e =>
      State.freeCount_of_free fun r => by simpa [State.message, e] using free r
    simp only [resetWith, State.suspendedNow]
    rw [count _ rfl]
    exact Bool.or_false _
  have pool : (resetWith strap shadow table clear s).pool =
      { Pool.reset with suspension := (resetWith strap shadow table clear s).pool.suspension } := rfl
  rw [suspended] at pool
  rw [State.eq_iff, pool]
  unfold resetWith
  rw [abandonRun_eq]
  simp

theorem tableAfterReset_get (table : Vector Message 128) (r : RecordIdx) :
    (tableAfterReset table)[r] = Message.free
      (if (table[r]).state = .free then (table[r]).generation else nextGeneration r (table[r]).generation) := by
  simp only [tableAfterReset, Fin.getElem_fin, Vector.getElem_ofFn]
  split <;> rfl

theorem powerOn_eq (strap : Fin 8) (s : State) :
    powerOn strap s = { State.reset with
      pending := s.pending, circuits := (powerOn strap s).circuits, strap := strap, strapBefore := strap
      waiting := s.waiting, readData := s.readData, store := (abandonRun s).store } :=
  resetWith_eq strap [] (Vector.replicate 32 false) s Message.powerOnTable_free

end Sys2Proof.Machine

open Sys2Proof Sys2Proof.Machine

/-- Settles O47: the two branches of a hand-over. -/
theorem reportJoinsTheListOrIsLost : Obligations.ReportJoinsTheListOrIsLost := by
  unfold Obligations.ReportJoinsTheListOrIsLost
  intro place tag kind s
  have full (h : 32 ≤ s.reports.pending.length) : ¬ s.reports.pending.length < Config.pendingReports :=
    Nat.not_lt.mpr h
  refine ⟨fun h => if_pos h, fun h lost => ?_, fun h lost => ?_⟩
  · rw [State.raise, if_neg (full h)]
    simp [lost]
  · have e : min (s.reports.lost + 1) 65535 = s.reports.lost := by omega
    have d : decide (s.reports.lost < 65535) = false := by simp [lost]
    rw [State.raise, if_neg (full h), e, d, Bool.or_false]

/-- Settles O11: the sweep over the records, and the office tick that the minute tick is. -/
theorem minuteTickReportsOverdueMessages : Obligations.MinuteTickReportsOverdueMessages := by
  unfold Obligations.MinuteTickReportsOverdueMessages
  refine ⟨fun s => ?_, fun s => ⟨fun h => ?_, fun h => ?_⟩⟩
  · let now : State := { s with minute := s.minute + 1, officeDirty := true }
    obtain ⟨frame, each⟩ := checkOverdue_foldl allRecords (List.nodup_finRange 128) (s := now) rfl
    have due : now.isOverdue = fun r => decide ((s.message r).state = .routed) &&
        decide (0 < s.overdueLimit (s.message r).rank) && !(s.message r).overdueReported &&
        decide (s.overdueLimit (s.message r).rank ≤
          (s.minute + 1 - (s.message r).receiptMinute.getD 0).toNat) := by
      funext r
      simp only [Nat.pos_iff_ne_zero]
      rfl
    rw [due] at frame
    refine ⟨frame, fun r => ?_⟩
    have each := each r
    simp only [allRecords, List.mem_finRange, true_and, due] at each
    exact each
  · exact congrArg Host.Outcome.next (if_pos (Nat.succ_lt_succ h))
  · have due : minuteTickEvent s =
        officeTick (fun c => (s.circuit c).line.receiveIn) (fun c => (s.circuit c).line.loopIn) s :=
      if_neg (by simp only [Config.ticksPerMinute]; omega)
    refine ⟨timersTick (fun c => (s.circuit c).line.receiveIn) (fun c => (s.circuit c).line.loopIn) 0 s,
      congrArg Host.Outcome.next (due.trans (officeTick_of_le _ _ h)), rfl, fun receive loop hr hl => ?_⟩
    refine congrArg Host.Outcome.next (due.trans ?_)
    rw [← funext hr, ← funext hl]

/-- Settles O10: the tick reaches every circuit, and each watch and the line check is one of its cases. -/
theorem officeTickRunsTimersWatchAndCheck : Obligations.OfficeTickRunsTimersWatchAndCheck := by
  unfold Obligations.OfficeTickRunsTimersWatchAndCheck
  refine ⟨fun receive loop s => ?_, fun receive loop c s t ht => ?_⟩
  · refine ⟨timersTick (fun c => receive.getLsbD c.val) (fun c => loop.getLsbD c.val)
      (if s.tickCount < 5999 then s.tickCount + 1 else 0) s, congrArg Host.Outcome.next ?_, rfl, fun c => ?_⟩
    · by_cases h : s.tickCount < 5999
      · rw [officeTick_of_lt _ _ h]
        simp [h]
      · rw [officeTick_of_le _ _ (Nat.not_lt.mp h)]
        simp [h]
    · rw [State.circuit_timersTick]
      unfold CircuitState.officeTick
      rw [LineUnit.officeTick_eq, Controller.checkTick_keeps]
      simp [Dialogue.officeTick, timerTick, State.inService]
  · have ticked : t.circuit c = (s.circuit c).officeTick (receive.getLsbD c.val) (loop.getLsbD c.val) := by
      injection ht with e
      subst e
      by_cases h : s.tickCount < 5999
      · rw [officeTick_of_lt _ _ h, State.circuit_timersTick]
      · rw [officeTick_of_le _ _ (Nat.not_lt.mp h), circuit_minuteTick, State.circuit_timersTick]
    generalize receive.getLsbD c.val = mark at ticked ⊢
    generalize loop.getLsbD c.val = current at ticked ⊢
    have line : (t.circuit c).line = _ := (congrArg CircuitState.line ticked).trans (LineUnit.officeTick_eq _ _ _ _)
    have count : (t.circuit c).control.checkCount = ((s.circuit c).control.checkTick mark current).checkCount := by
      rw [ticked]
      rfl
    have run : (t.circuit c).control.markRun = ((s.circuit c).control.checkTick mark current).markRun := by
      rw [ticked]
      rfl
    rw [line, count, run]
    refine ⟨LineUnit.watchOpen_below _ _, LineUnit.watchOpen_limit _ _, fun armed h => ?_, fun armed h => ?_,
      fun tripped h => ?_, fun tripped h => ?_, fun hs hm => ⟨fun going => ?_, fun hc hn => ?_⟩,
      fun _ hm => ?_, fun hs => ?_⟩
    · rw [LineUnit.watchLoop_armed _ _ armed h]
      exact ⟨armed, rfl⟩
    · rw [LineUnit.watchLoop_due _ _ armed h]
      exact ⟨armed, rfl⟩
    · rw [LineUnit.watchLoop_tripped _ _ tripped, if_pos h]
      exact ⟨rfl, rfl⟩
    · rw [LineUnit.watchLoop_tripped _ _ tripped, if_neg (by simp [h])]
      split
      · exact ⟨tripped, rfl⟩
      · exact ⟨tripped, rfl⟩
    · have due : (s.circuit c).control.noLineDue = false := by
        rcases going with h | h
        · simp [Controller.noLineDue, h.ne]
        · simp [Controller.noLineDue, h]
      rw [Controller.checkTick_goes _ _ hs hm due]
      exact ⟨rfl, rfl⟩
    · rw [Controller.checkTick_stands _ _ (.inr (.inr (by simp [Controller.noLineDue, hs, hm, hc, hn])))]
      exact ⟨hc, rfl⟩
    · rw [Controller.checkTick_stands _ _ (.inr (.inl hm))]
      exact ⟨rfl, rfl⟩
    · rw [Controller.checkTick_stands _ _ (.inl hs)]
      exact ⟨rfl, rfl⟩

/-- Settles O9: every reset sets the same fields, and the run in progress is abandoned. -/
theorem resetsReturnThePartToItsResetValues : Obligations.ResetsReturnThePartToItsResetValues := by
  unfold Obligations.ResetsReturnThePartToItsResetValues
  refine ⟨fun strap s => ⟨powerOn strap s, rfl, ?_, fun c => resetWith_circuit _ _ _ _ s c, fun h => ?_,
    fun run made h hr => ?_⟩, fun strap s => ⟨fun h => ?_, fun h => ⟨_, congrArg Host.Outcome.next (if_pos h), ?_,
      fun c => resetWith_circuit _ _ _ _ s c, fun r => tableAfterReset_get s.messages r, fun ho => ?_,
      fun run made hg hr => ?_⟩⟩⟩
  · rw [powerOn_eq]
  · rw [powerOn_eq, abandonRun_open h]
  · rw [powerOn_eq, abandonRun_granted h hr]
  · exact congrArg Host.Outcome.next (if_neg h)
  · have free : ∀ r : RecordIdx, ((tableAfterReset s.messages)[r]).state = .free := fun r => by
      rw [tableAfterReset_get]
      rfl
    rw [resetWith_eq strap s.shadow s.pendingClear s free]
    rfl
  · exact (congrArg State.store (abandonRun_open ho) :)
  · exact (congrArg State.store (abandonRun_granted hg hr) :)
end

section
/-! PROOF. The line unit's ticks: the receiver's table, the re-arming, and a stop sample in the line unit. -/

namespace Sys2Proof.Machine

/-! ### The comparison of speeds, in every case (R11, R12) -/

/-- A comparison is made in the directions named, and it raises SETTING_HELD. -/
def State.raisesHeld (s : State) (c : Circuit) : Bool :=
  s.inService c && speedSettingInvalid (s.setting c 1) && !(s.circuit c).line.settingHeld

/-- A line unit after a comparison in the directions named, with word 1 as given. -/
def LineUnit.copied (l : LineUnit) (rx tx : Bool) (word : Word) : LineUnit :=
  { l with
    rxSpeed := if rx then (speedOf word).getD l.rxSpeed else l.rxSpeed
    txSpeed := if tx then (speedOf word).getD l.txSpeed else l.txSpeed
    txStop := if tx then (stopOf word).getD l.txStop else l.txStop }

/-- A comparison changes the line unit of its circuit, and raises SETTING_HELD at most once (R11, R12). -/
theorem compareSpeed_spec (rx tx : Bool) (c : Circuit) (s : State) :
    s.onlyCircuit (compareSpeed rx tx c s) c
      (if (rx || tx) && s.raisesHeld c then [(.circuit c none, 0, .settingHeld)] else []) ∧
    (compareSpeed rx tx c s).circuit c = { s.circuit c with
      line := if s.inService c then
          { (s.circuit c).line.copied rx tx (s.setting c 1) with
            settingHeld := (s.circuit c).line.settingHeld || ((rx || tx) && s.raisesHeld c) }
        else (s.circuit c).line } := by
  cases hs : s.inService c with
  | false =>
    rw [compareSpeed_outOfService _ _ hs]
    simp only [State.raisesHeld, hs, Bool.false_and, Bool.and_false]
    exact ⟨s.onlyCircuit_refl c, rfl⟩
  | true =>
    cases hd : rx || tx with
    | false =>
      obtain ⟨rfl, rfl⟩ : rx = false ∧ tx = false := by simpa using hd
      simp only [compareSpeed, hd]
      exact ⟨s.onlyCircuit_refl c, by simp [LineUnit.copied]⟩
    | true =>
      by_cases h : speedSettingInvalid (s.setting c 1) = false ∨ (s.circuit c).line.settingHeld = true
      · have none : s.raisesHeld c = false := by
          rcases h with h | h <;> simp [State.raisesHeld, h]
        rw [compareSpeed_quiet _ _ h]
        simp only [hs, hd, none, Bool.and_true]
        exact ⟨s.onlyCircuit_setCircuit c _, by simp [LineUnit.copied]⟩
      · obtain ⟨hi, hm⟩ : speedSettingInvalid (s.setting c 1) = true ∧ (s.circuit c).line.settingHeld = false := by
          simpa using h
        have raises : s.raisesHeld c = true := by simp [State.raisesHeld, hs, hi, hm]
        rw [compareSpeed_held _ _ hi hm hs hd]
        simp only [raises, Bool.and_true]
        exact ⟨State.onlyCircuit_trans (l := [(.circuit c Option.none, 0, .settingHeld)])
          (State.onlyCircuit_trans (s.onlyCircuit_raise c _ _ _) (State.onlyCircuit_setCircuit _ c _))
          (State.onlyCircuit_setCircuit _ c _), by simp [LineUnit.copied]⟩

/-! ### The receiver's ticks (R4, R5, R14) -/

/-- A false start returns the receiver to HUNTING (R4). -/
def Receiver.falseStart (r : Receiver) (mark : Bool) : Bool :=
  mark && match r with
    | .confirming k => decide (7 ≤ k)
    | _ => false

/-- The receiver's table (R4, R5), state by state. -/
theorem Receiver.tick_eq (r : Receiver) (mark : Bool) : r.tick mark =
    (match r with
      | .stopped => .stopped
      | .hunting => if mark then .hunting else .confirming 0
      | .confirming k => if k < 7 then .confirming (k + 1) else if mark then .hunting else .assembling 0 0
      | .assembling k bits => .assembling (k + 1)
          (if mark && decide ((k + 1) % 16 = 0) && decide (k + 1 ≤ 80) then bits ||| 1 <<< ((k + 1) / 16 - 1)
           else bits),
      r.falseStart mark) := by
  cases r with
  | stopped => simp [Receiver.tick, Receiver.falseStart]
  | hunting => simp [Receiver.tick, Receiver.falseStart]
  | confirming k =>
    by_cases h : k < 7
    · have h' : k + 1 < 8 := by omega
      have h'' : ¬ 7 ≤ k := by omega
      simp [Receiver.tick, Receiver.falseStart, h, h', h'']
    · have h' : ¬ k + 1 < 8 := by omega
      have h'' : 7 ≤ k := by omega
      cases mark <;> simp [Receiver.tick, Receiver.falseStart, h, h', h'']
  | assembling k bits =>
    have order : ((decide ((k + 1) % 16 = 0) && decide (k + 1 ≤ 80) && mark) = true) =
        ((mark && decide ((k + 1) % 16 = 0) && decide (k + 1 ≤ 80)) = true) := by
      simp only [Bool.and_eq_true]
      exact propext ⟨fun ⟨⟨a, b⟩, c⟩ => ⟨⟨c, a⟩, b⟩, fun ⟨⟨c, a⟩, b⟩ => ⟨⟨a, b⟩, c⟩⟩
    simp only [Receiver.tick, Receiver.falseStart, order, Bool.and_false]
    split <;> rfl

/-- The mark run of the open-receive detector at a receive tick (R14). -/
theorem LineUnit.markRun_eq (l : LineUnit) (mark : Bool) :
    l.markRun mark = { l with
      openMarkRun := if l.openRearmDue then l.openMarkRun
        else if mark && decide (l.openDetector = .tripped) then l.openMarkRun + 1 else 0 } := by
  unfold LineUnit.markRun
  split <;> rfl

/-- A receive tick short of the stop sample: the table, and the comparison after a false start (R4, R5, R11). -/
theorem receiveSampleTick_spec {c : Circuit} (mark : Bool) {s : State}
    (h : (s.circuit c).line.receiver.stopSampleDue = false) {compares held : Bool}
    (hc : compares = ((s.circuit c).line.receiver.falseStart mark && s.inService c))
    (hh : held = (compares && speedSettingInvalid (s.setting c 1) && !(s.circuit c).line.settingHeld)) :
    s.onlyCircuit (receiveSampleTick c mark s) c (if held then [(.circuit c none, 0, .settingHeld)] else []) ∧
    (receiveSampleTick c mark s).circuit c = { s.circuit c with
      line := { (s.circuit c).line with
        receiver := ((s.circuit c).line.receiver.tick mark).1
        rxTicksDue := (s.circuit c).line.rxTicksDue - 1, receiveIn := mark
        openMarkRun := ((s.circuit c).line.markRun mark).openMarkRun
        rxSpeed := if compares then (speedOf (s.setting c 1)).getD (s.circuit c).line.rxSpeed
          else (s.circuit c).line.rxSpeed
        settingHeld := (s.circuit c).line.settingHeld || held } } := by
  let ticked := s.updLine c fun l =>
    { l.takeReceiveTick mark with receiver := ((s.circuit c).line.receiver.tick mark).1 }
  have e : receiveSampleTick c mark s =
      if (s.circuit c).line.receiver.falseStart mark then compareSpeed true false c ticked else ticked := by
    rw [receiveSampleTick, if_neg (by simp [h])]
    simp only [Receiver.tick_eq, ticked]
  have read : ticked.circuit c = { s.circuit c with
      line := { (s.circuit c).line with
        receiver := ((s.circuit c).line.receiver.tick mark).1
        rxTicksDue := (s.circuit c).line.rxTicksDue - 1, receiveIn := mark
        openMarkRun := ((s.circuit c).line.markRun mark).openMarkRun } } := by
    simp [ticked, LineUnit.takeReceiveTick, LineUnit.markRun_eq]
  have frame : s.onlyCircuit ticked c [] := s.onlyCircuit_setCircuit c _
  have word : ticked.setting c 1 = s.setting c 1 := rfl
  have service : ticked.inService c = s.inService c := by simp [State.inService, read]
  rw [e]
  cases hf : (s.circuit c).line.receiver.falseStart mark with
  | false =>
    rw [hf, Bool.false_and] at hc
    rw [hc, Bool.false_and, Bool.false_and] at hh
    subst hc hh
    exact ⟨frame, by simp [read]⟩
  | true =>
    rw [hf, Bool.true_and] at hc
    have raises : ticked.raisesHeld c = held := by rw [hh, hc, State.raisesHeld, service, word, read]
    obtain ⟨compared, line⟩ := compareSpeed_spec true false c ticked
    simp only [raises, Bool.true_or, Bool.true_and] at compared line
    refine ⟨State.onlyCircuit_trans frame compared, line.trans ?_⟩
    rw [service, word, ← hc, read]
    cases compares with
    | true => simp [LineUnit.copied]
    | false =>
      rw [Bool.false_and, Bool.false_and] at hh
      simp [hh]

end Sys2Proof.Machine

open Sys2Proof Sys2Proof.Machine

/-- Settles O12: the tick changes the line unit, and a false start adds a comparison. -/
theorem receiveTicksDriveTheReceiverAndItsRearming : Obligations.ReceiveTicksDriveTheReceiverAndItsRearming := by
  unfold Obligations.ReceiveTicksDriveTheReceiverAndItsRearming
  refine ⟨fun c mark s h => ⟨receiveSampleTick c mark s, rfl, ?_⟩, fun c s ht hr => ?_⟩
  · have spec := receiveSampleTick_spec mark h rfl rfl
    rw [Receiver.tick_eq, LineUnit.markRun_eq] at spec
    exact spec
  · refine ⟨_, congrArg Host.Outcome.next (if_pos ?_), s.onlyCircuit_setCircuit c _, by simp⟩
    simp [LineUnit.openRearmDue, ht, hr]
end

section
/-! SUPPORT. What a character boundary does: the source is told, the speeds are compared, and the next character is
taken. -/

namespace Sys2Proof.Machine

/-! ### The character boundary (R9 to R11) -/

/-- The finished character has left the line (R8, R9). -/
def State.atBoundary (s : State) (c : Circuit) : State :=
  s.setCircuit c { s.circuit c with
    line := { (s.circuit c).line with
      transmitter := .idle, txTicksDue := (s.circuit c).line.txTicksDue - 1 } }

theorem State.circuit_atBoundary (s : State) (c : Circuit) :
    (s.atBoundary c).circuit c = { s.circuit c with
      line := { (s.circuit c).line with
        transmitter := .idle, txTicksDue := (s.circuit c).line.txTicksDue - 1 } } :=
  s.circuit_setCircuit_self c _

/-- The transmitter compares speeds, the scheduler may preempt, and the next character is taken (R9, R11, R110). -/
def nextCharacter (c : Circuit) (s : State) : State :=
  let compared := compareSpeed false true c s
  takeOffered c (if compared.preempts c then beginCancelLine c .preempt compared else compared)

/-- The source of a finished character is told (R9, R10). -/
def tellSource (c : Circuit) (source : Option CharSource) (s : State) : State :=
  match source with
  | some .sendController => sendCharLeft c s
  | some .dialogue => dialogueCharLeft c s
  | none => s

theorem tellSource_dialogue (c : Circuit) (s : State) :
    tellSource c (some .dialogue) s = dialogueCharLeft c s := by
  simp only [tellSource]

theorem tellSource_sendController (c : Circuit) (s : State) :
    tellSource c (some .sendController) s = sendCharLeft c s := by
  simp only [tellSource]

theorem characterBoundary_eq {s : State} {c : Circuit} {char : RelayChar} {tick total : Nat}
    {source : Option CharSource} (ht : (s.circuit c).line.transmitter = .sending char tick total source)
    (due : total ≤ tick + 1) :
    characterBoundary c s = nextCharacter c (tellSource c source (s.atBoundary c)) := by
  unfold characterBoundary
  rw [ht]
  exact if_pos due

/-- The circuit with the codes of word 1 copied by its transmitter (R11). -/
def State.sendCompared (s : State) (c : Circuit) : State :=
  s.setCircuit c { s.circuit c with
    line := { (s.circuit c).line with
      txSpeed := (speedOf (s.setting c 1)).getD (s.circuit c).line.txSpeed
      txStop := (stopOf (s.setting c 1)).getD (s.circuit c).line.txStop } }

theorem State.circuit_sendCompared (s : State) (c : Circuit) :
    (s.sendCompared c).circuit c = { s.circuit c with
      line := { (s.circuit c).line with
        txSpeed := (speedOf (s.setting c 1)).getD (s.circuit c).line.txSpeed
        txStop := (stopOf (s.setting c 1)).getD (s.circuit c).line.txStop } } :=
  s.circuit_setCircuit_self c _

/-- With word 1 valid, or held already, the transmitter's comparison is a copy (R11). -/
theorem compareSpeed_send {s : State} {c : Circuit}
    (quiet : speedSettingInvalid (s.setting c 1) = false ∨ (s.circuit c).line.settingHeld = true)
    (hs : s.inService c = true) : compareSpeed false true c s = s.sendCompared c := by
  have compared := compareSpeed_quiet false true quiet
  simp only [Bool.false_or, hs, Bool.and_true, if_true, Bool.false_eq_true, if_false] at compared
  exact compared

/-- The line unit does not bear on preemption (R110). -/
theorem State.preempts_line (s : State) (c : Circuit) (l : LineUnit) :
    (s.setCircuit c { s.circuit c with line := l }).preempts c = s.preempts c := by
  simp [State.preempts, State.preemptable, State.isParty, State.queue, State.entryAnswering, State.entryStation,
    State.delivery, State.station]
  rfl

/-- With no preemption and a valid word 1, the speeds are copied and the next character is taken. -/
theorem nextCharacter_plain {s : State} {c : Circuit}
    (quiet : speedSettingInvalid (s.setting c 1) = false ∨ (s.circuit c).line.settingHeld = true)
    (hs : s.inService c = true) (stays : s.preempts c = false) :
    nextCharacter c s = takeOffered c (s.sendCompared c) := by
  have stays' : (s.sendCompared c).preempts c = false := (s.preempts_line c _).trans stays
  simp only [nextCharacter, compareSpeed_send quiet hs]
  rw [if_neg (by simp [stays'])]

theorem takeOffered_none {s : State} {c : Circuit} (h : s.offered c = none) :
    takeOffered c s = s.setCircuit c { s.circuit c with
      line := { (s.circuit c).line with transmitter := .idle } } := by
  unfold takeOffered
  rw [h]
  rfl

/-- In the dialogue's own sequences the dialogue controller offers (R119). -/
theorem State.offered_dialogue {s : State} {c : Circuit} (party : s.isParty c = true)
    (h : (s.circuit c).dialogue.state = .calling ∨ (s.circuit c).dialogue.state = .pollSending ∨
      (s.circuit c).dialogue.state = .replying) :
    s.offered c = ((s.dialogueSequence c)[(s.circuit c).dialogue.sequencePos]?).map fun ch => (ch, .dialogue) := by
  unfold State.offered
  rw [party]
  rcases h with h | h | h <;> rw [h]

/-- Outside them the send controller offers, and in phase NONE nothing (R9, R99). -/
theorem State.offered_none {s : State} {c : Circuit} (idle : (s.circuit c).send = .none)
    (h : (s.circuit c).dialogue.state ≠ .calling ∧ (s.circuit c).dialogue.state ≠ .pollSending ∧
      (s.circuit c).dialogue.state ≠ .replying) :
    s.offered c = none := by
  obtain ⟨h1, h2, h3⟩ := h
  have sends : s.sendOffers c = none := by simp [State.sendOffers, State.phaseLine, idle, SendController.none]
  unfold State.offered
  split
  · contradiction
  · contradiction
  · contradiction
  · rw [sends]
    rfl

theorem takeOffered_dialogue {s : State} {c : Circuit} {char : RelayChar} (h : s.offered c = some (char, .dialogue)) :
    takeOffered c s = s.setCircuit c { s.circuit c with
      line := { (s.circuit c).line with
        transmitter := .sending char 0 (characterTicks (s.circuit c).line.txStop) (some .dialogue) } } := by
  unfold takeOffered
  rw [h]
  rfl

/-- With no active delivery nothing is preempted (R110). -/
theorem State.preempts_of_none {s : State} {c : Circuit} (h : (s.circuit c).send.active = none) :
    s.preempts c = false := by
  simp [State.preempts, State.preemptable, h]

end Sys2Proof.Machine
end

section
/-! PROOF. The backlog estimate, the choice between targets, and the schedulers. -/

namespace Sys2Proof.Machine

/-! ### The backlog estimate (R84, R85) -/

/-- The quotient of R85: the ceiling, saturated. -/
theorem backlogOf_spec (characters tc : Nat) :
    backlogOf characters tc ≤ 65535 ∧
    (backlogOf characters tc < 65535 → characters * tc ≤ 1000 * backlogOf characters tc ∧
      1000 * backlogOf characters tc < characters * tc + 1000) ∧
    (backlogOf characters tc = 65535 ↔ 1000 * 65534 < characters * tc) := by
  unfold backlogOf
  generalize characters * tc = product
  omega

/-- A phase before the trailer is one of the three (R84, R110). -/
theorem Phase.beforeTrailer_iff (p : Phase) :
    p.beforeTrailer = true ↔ p = .heading ∨ p = .dest ∨ p = .text := by
  cases p <;> simp [Phase.beforeTrailer]

/-- The five conditions of R84's list. -/
theorem State.preemptable_iff (s : State) (c : Circuit) :
    s.preemptable c = true ↔
      ∃ m k, (s.circuit c).send.active = some (m, k) ∧
        ((s.message m).rank = .r ∨ (s.message m).rank = .s) ∧
        (s.circuit c).control.effective.preemption = true ∧
        ((s.circuit c).send.phase = .heading ∨ (s.circuit c).send.phase = .dest ∨
          (s.circuit c).send.phase = .text) ∧
        (s.isParty c = true → (s.circuit c).dialogue.state = .delivering) ∧
        ¬ ((s.circuit c).control.state = .ready ∧ (s.circuit c).control.holdPending = true) := by
  simp only [← Phase.beforeTrailer_iff]
  cases active : (s.circuit c).send.active with
  | none => simp [State.preemptable, active]
  | some e =>
    simp only [State.preemptable, active, Bool.and_eq_true, Bool.or_eq_true, decide_eq_true_eq, Bool.not_eq_true',
      Option.some.injEq, Bool.and_eq_false_iff, decide_eq_false_iff_not]
    constructor
    · rintro ⟨⟨⟨⟨enabled, rank⟩, phase⟩, party⟩, hold⟩
      exact ⟨e.1, e.2, rfl, rank, enabled, phase, fun h => party.resolve_left (by simp [h]), by
        rintro ⟨ready, pending⟩
        rcases hold with h | h
        · exact h ready
        · rw [pending] at h
          cases h⟩
    · rintro ⟨m, k, rfl, rank, enabled, phase, party, hold⟩
      refine ⟨⟨⟨⟨enabled, rank⟩, phase⟩, ?_⟩, ?_⟩
      · by_cases h : s.isParty c = true
        · exact .inr (party h)
        · exact .inl (by simpa using h)
      · by_cases h : (s.circuit c).control.state = .ready
        · exact .inr (by simpa [h] using hold)
        · exact .inl h

/-! ### The choice between targets (R86) -/

/-- An alternate on a diverting circuit is treated as absent (R86, step 1). -/
theorem State.chooseTarget_absent {s : State} {p : Precedence} {pt : Target} {alternate : Option Target}
    {threshold : Nat} (h : ¬ ∃ a, alternate = some a ∧ s.isDiverting a.circuit = false) :
    s.chooseTarget p pt alternate threshold = if s.isDiverting pt.circuit then .intercept else .target pt := by
  have none : alternate.filter (fun t => !s.isDiverting t.circuit) = Option.none := by
    cases alternate with
    | none => rfl
    | some a =>
      have : s.isDiverting a.circuit = true := by
        cases hd : s.isDiverting a.circuit with
        | true => rfl
        | false => exact absurd ⟨a, rfl, hd⟩ h
      simp [Option.filter, this]
  unfold State.chooseTarget
  rw [none]
  cases s.isDiverting pt.circuit <;> rfl

/-- With an alternate present, a diverting primary is turned away, and else the two are compared (R86). -/
theorem State.chooseTarget_present {s : State} {p : Precedence} {pt a : Target} {threshold : Nat}
    (h : s.isDiverting a.circuit = false) :
    s.chooseTarget p pt (some a) threshold =
      .target (if s.isDiverting pt.circuit then a else s.chooseBetween p pt a threshold) := by
  have kept : (some a).filter (fun t => !s.isDiverting t.circuit) = some a := by simp [Option.filter, h]
  unfold State.chooseTarget
  rw [kept]
  cases s.isDiverting pt.circuit <;> rfl

/-- The choice between two targets that differ (R86, steps 4 to 7): the alternate exactly where the primary is not
available, or its backlog is above both the threshold and the alternate's. -/
theorem State.chooseBetween_eq {s : State} {p : Precedence} {pt a : Target} {threshold : Nat}
    (h : s.normalTarget pt ≠ s.normalTarget a) :
    s.chooseBetween p pt a threshold =
      if s.available a = true ∧ (s.available pt = false ∨ (100 * threshold < s.backlog pt.circuit p ∧
        s.backlog a.circuit p < s.backlog pt.circuit p)) then a else pt := by
  rw [State.chooseBetween, if_neg h]
  cases s.available pt <;> cases s.available a <;> simp

/-! ### The point scheduler (R100) -/

/-- The head of the highest queue that is not empty. -/
theorem State.highestHead_eq_some {s : State} {c : Circuit} {p : Precedence} {e : QueueEntry}
    {rest : List QueueEntry} (h : (s.queue c p).entries = e :: rest)
    (above : ∀ q ∈ p.andAbove, q ≠ p → (s.queue c q).entries = []) : s.highestHead c = some e := by
  cases p <;> simp_all [State.highestHead, allPrecedences, Precedence.andAbove]

theorem State.highestHead_eq_none {s : State} {c : Circuit} (h : ∀ p, (s.queue c p).entries = []) :
    s.highestHead c = none := by
  simp [State.highestHead, allPrecedences, h]

/-- An entry named nowhere else leaves from the head of its queue (R97). -/
theorem Queue.leave_head {q : Queue} {e : QueueEntry} {rest : List QueueEntry} (h : q.entries = e :: rest)
    (alone : ∀ e' ∈ rest, e'.names e.record e.slot = false) :
    q.leave e.record e.slot = { entries := rest, count := q.count - e.sentLength } := by
  have self : e.names e.record e.slot = true := by simp [QueueEntry.names]
  have others : rest.filter (fun e' => !e'.names e.record e.slot) = rest :=
    List.filter_eq_self.mpr fun e' he => by simp [alone e' he]
  simp [Queue.leave, h, self, others]

theorem State.mayStart_iff (s : State) (c : Circuit) : s.mayStart c = true ↔
    (s.circuit c).control.state = .ready ∧ (s.circuit c).control.holdPending = false ∧
    (s.circuit c).control.diverting = false := by
  simp [State.mayStart, and_assoc]

theorem judge_point {s : State} {c : Circuit} (h : s.isParty c = false) : judge c s = judgePoint c s :=
  if_neg (by simp [h])

theorem judge_party {s : State} {c : Circuit} (h : s.isParty c = true) : judge c s = judgeParty c s :=
  if_pos h

/-- The point scheduler starts nothing unless the circuit may start and is in phase NONE, and a queue holds an entry
(R100). -/
theorem judgePoint_idle {s : State} {c : Circuit}
    (h : s.mayStart c = false ∨ (s.circuit c).send.phase ≠ .idle ∨ s.highestHead c = none) : judgePoint c s = s := by
  unfold judgePoint
  rcases h with h | h | h
  · simp [h]
  · simp [h]
  · rw [h]
    exact ite_self s

theorem judgePoint_starts {s : State} {c : Circuit} {e : QueueEntry} (may : s.mayStart c = true)
    (idle : (s.circuit c).send.phase = .idle) (head : s.highestHead c = some e) :
    judgePoint c s = startTransmission c e s := by
  simp [judgePoint, may, idle, head]

/-- A transmission started on a point circuit, told by its two accessors: the circuit's queue, counter and send
controller, and the delivery's slot (R100, R102, R105). -/
theorem startTransmission_point {s : State} {c : Circuit} {e : QueueEntry} {d : Delivery}
    (point : s.isParty c = false) (hd : s.delivery e.record e.slot = some d) :
    let u := startTransmission c e s
    u = { s with
        circuits := u.circuits, circuitDirty := u.circuitDirty
        messages := u.messages, messageDirty := u.messageDirty } ∧
      s.othersKept u c ∧
      u.circuit c = { s.circuit c with
        queues := (s.circuit c).queues.put (s.message e.record).rank
          ((s.queue c (s.message e.record).rank).leave e.record e.slot)
        outgoing := nextChannel (s.circuit c).outgoing
        send := {
          active := some (e.record, e.slot), phase := .heading, position := 0, remaining := e.sentLength
          channel := some (s.circuit c).outgoing, cause := none, pendingCancel := false, fifo := []
          fetch := beginFetch (s.message e.record) } } ∧
      (∀ r', r' ≠ e.record → u.message r' = s.message r') ∧
      u.message e.record = { s.message e.record with
        slots := (s.message e.record).slots.set e.slot
          (some { d with state := .active, saved := some (s.circuit c).outgoing }) } := by
  have kept : ∀ x : CircuitState, x.control = (s.circuit c).control → (s.setCircuit c x).isParty c = false :=
    fun x hx => by simpa [State.isParty, hx] using point
  intro u
  have form : u = startTransmission c e s := rfl
  simp only [startTransmission, hd, assignChannel, State.updQueue_eq, kept, State.updCircuit_eq, State.updSlot_eq,
    State.updSend_eq, State.circuit_setCircuit_self, State.message_setCircuit, State.circuit_setMessage,
    Bool.false_eq_true, if_false] at form
  rw [form]
  refine ⟨by simp [State.eq_iff], fun d hd => ⟨by simp [State.circuit_setCircuit_ne, hd], by simp [hd]⟩,
    by simp [State.queue], fun r' hr => by simp [State.message_setMessage_ne, hr], by simp⟩

/-! ### The party scheduler (R121 to R124, R130) -/

theorem judgeParty_busy {s : State} {c : Circuit}
    (h : ¬ (s.mayStart c = true ∧ (s.circuit c).dialogue.state = .quiet)) : judgeParty c s = s :=
  if_neg (by simpa using h)

/-- The five steps of R123, in their order. -/
theorem judgeParty_free {s : State} {c : Circuit} (may : s.mayStart c = true)
    (quiet : (s.circuit c).dialogue.state = .quiet) :
    judgeParty c s =
      match s.firstAnswering c .t, (s.circuit c).dialogue.pollExpired,
        (if s.pool.suspension then none else s.nextPoll c), s.lowerChoice c with
      | some e, _, _, _ => selectFor c e s
      | none, true, some t, _ => pollStation c t s
      | none, _, _, some e => selectFor c e s
      | none, _, some t, none => pollStation c t s
      | none, _, none, none => s :=
  if_pos (by simp [may, quiet])

/-- The letter of the sequence that a dialogue sends to its station (R124, R130). -/
def callLetter (d : DialogueState) : RelayChar := if d = .calling then chS else chP

/-- In CALLING and POLL_SENDING the five characters of the sequence are offered (R119). -/
theorem State.dialogueSequence_call {s : State} {c : Circuit} {n : StationIdx}
    (calling : (s.circuit c).dialogue.state = .calling ∨ (s.circuit c).dialogue.state = .pollSending)
    (selected : (s.circuit c).dialogue.selected = some n) :
    s.dialogueSequence c = callSequence (callLetter (s.circuit c).dialogue.state) (s.station c n) := by
  rcases calling with h | h <;> simp [State.dialogueSequence, h, selected, callLetter]

theorem callSequence_length (letter : RelayChar) (t : Station) : (callSequence letter t).length = 5 := rfl

/-- Before the fifth character of a select or a poll the sequence goes on (R124, R130). -/
theorem dialogueCharLeft_goes {s : State} {c : Circuit} {n : StationIdx}
    (calling : (s.circuit c).dialogue.state = .calling ∨ (s.circuit c).dialogue.state = .pollSending)
    (selected : (s.circuit c).dialogue.selected = some n) (h : (s.circuit c).dialogue.sequencePos < 4) :
    dialogueCharLeft c s = s.setCircuit c { s.circuit c with
      dialogue := { (s.circuit c).dialogue with
        sequencePos := (s.circuit c).dialogue.sequencePos + 1 } } := by
  have going : ¬ 5 ≤ (s.circuit c).dialogue.sequencePos + 1 := by omega
  unfold dialogueCharLeft
  rw [State.dialogueSequence_call calling selected, callSequence_length]
  rcases calling with e | e <;> simp [e, going]

/-- The fifth character of a select or a poll begins the wait for the station (R120, R124, R130). -/
theorem dialogueCharLeft_waits {s : State} {c : Circuit} {n : StationIdx}
    (calling : (s.circuit c).dialogue.state = .calling ∨ (s.circuit c).dialogue.state = .pollSending)
    (selected : (s.circuit c).dialogue.selected = some n) (h : 4 ≤ (s.circuit c).dialogue.sequencePos) :
    s.onlyCircuit (dialogueCharLeft c s) c [] ∧
    (dialogueCharLeft c s).circuit c = { s.circuit c with
      dialogue := { (s.circuit c).dialogue with
        state := if (s.circuit c).dialogue.state = .calling then .answerWait else .pollWait
        sequencePos := (s.circuit c).dialogue.sequencePos + 1
        answerTimer := some (s.circuit c).control.effective.answerTimeout, matchPos := 0, answerShift := .letters
        pollReply := none } } := by
  have finished : 5 ≤ (s.circuit c).dialogue.sequencePos + 1 := by omega
  unfold dialogueCharLeft
  rw [State.dialogueSequence_call calling selected, callSequence_length]
  rcases calling with e | e
  all_goals
    simp only [e, finished]
    exact ⟨State.onlyCircuit.set (s.onlyCircuit_setCircuit c _) _, by simp [beginWait]⟩

end Sys2Proof.Machine

open Sys2Proof Sys2Proof.Machine

/-- Settles O36: the estimate is the quotient of R85, and the substitution of R84 its five conditions. -/
theorem backlogIsTheSaturatedCeiling : Obligations.BacklogIsTheSaturatedCeiling := by
  unfold Obligations.BacklogIsTheSaturatedCeiling
  intro s c p
  have inFlight : s.inFlight c p = if p = .t ∧ s.preemptable c = true then 9
      else if (s.circuit c).send.active = none then 0 else (s.circuit c).send.remaining := by
    cases h : (s.circuit c).send.active <;> simp [State.inFlight, h]
  obtain ⟨bound, below, full⟩ := backlogOf_spec (s.queuedCharacters c p + s.inFlight c p) (s.tc c)
  dsimp only
  rw [← inFlight]
  exact ⟨bound, below, full, s.preemptable_iff c⟩

/-- Settles O37: with and without an alternate that does not divert. -/
theorem routeUnitChoosesByAvailabilityAndBacklog : Obligations.RouteUnitChoosesByAvailabilityAndBacklog := by
  unfold Obligations.RouteUnitChoosesByAvailabilityAndBacklog
  intro s p pt alternate threshold
  refine ⟨fun hp h => ?_, fun hp h => ?_, ?_⟩
  · rw [State.chooseTarget_absent h, if_pos hp]
  · rw [State.chooseTarget_absent h, if_neg (by simp [hp])]
  rintro a rfl ha
  rw [State.chooseTarget_present ha]
  refine ⟨fun hp => by rw [if_pos hp], fun hp differ => ?_, fun hp same => ?_⟩
  · have targets : pt ≠ a := fun e => differ (by rw [e])
    rw [if_neg (by simp [hp]), State.chooseBetween_eq differ]
    split
    · rename_i h
      exact ⟨⟨fun _ => h, fun _ => rfl⟩, .inr rfl⟩
    · rename_i h
      exact ⟨⟨fun e => absurd (Choice.target.inj e) targets, fun e => absurd e h⟩, .inl rfl⟩
  · rw [if_neg (by simp [hp]), State.chooseBetween, if_pos same]

/-- Settles O40: what the head of the highest queue is, and what starting it does. -/
theorem pointSchedulerStartsTheHeadOfTheHighestQueue : Obligations.PointSchedulerStartsTheHeadOfTheHighestQueue := by
  unfold Obligations.PointSchedulerStartsTheHeadOfTheHighestQueue
  intro c s point
  rw [judge_point point]
  refine ⟨fun h => judgePoint_idle ?_, fun p e rest d may entries above rank hd alone => ?_⟩
  · rcases h with h | h
    · rw [← and_assoc, ← and_assoc, and_assoc (c := (s.circuit c).control.diverting = false),
        ← State.mayStart_iff, not_and_or, Bool.not_eq_true] at h
      exact h.imp_right .inl
    · exact .inr (.inr (State.highestHead_eq_none h))
  · obtain ⟨ready, hold, divert, idle⟩ := may
    rw [judgePoint_starts ((s.mayStart_iff c).mpr ⟨ready, hold, divert⟩) idle
      (State.highestHead_eq_some entries above)]
    have started := startTransmission_point point hd
    rw [rank, Queue.leave_head entries alone] at started
    obtain ⟨frame, others, circuit, messages, message⟩ := started
    refine ⟨frame, others, circuit.trans ?_, messages, message⟩
    cases hm : (s.message e.record).head <;> simp [beginFetch, hm, nextChannel]

/-- Settles O41: the order of the choice, what a select and a poll do, and the two cases of a sequence's boundary. -/
theorem partySchedulerChoosesInOrder : Obligations.PartySchedulerChoosesInOrder := by
  unfold Obligations.PartySchedulerChoosesInOrder
  refine ⟨fun c s party => ?_, fun c n s => ?_, fun c n s char tick total ht due party service valid none
    selected calling => ?_⟩
  · rw [judge_party party]
    refine ⟨judgeParty_busy, fun e t free he hst => ?_, fun t free he hp hpoll => ?_,
      fun e t free he hp hl hst => ?_, fun t free he hp hl hpoll => ?_, fun free he hl hpoll => ?_⟩
    all_goals
      obtain ⟨may, quiet⟩ := free
      rw [judgeParty_free may quiet]
    · simp [he, selectFor, hst]
    · simp [he, hp, hpoll]
    · rcases hp with hp | hp
      · simp [he, hp, hl, selectFor, hst]
      · simp [he, hp, hl, selectFor, hst]
    · simp [he, hp, hl, hpoll]
    · simp [he, hl, hpoll]
  · exact ⟨s.onlyCircuit_setCircuit c _, by simp [selectStation], s.onlyCircuit_setCircuit c _, by simp [pollStation]⟩
  · have e := characterBoundary_eq ht due
    rw [tellSource_dialogue] at e
    refine ⟨_, congrArg Host.Outcome.next e, ?_⟩
    have read := s.circuit_atBoundary c
    have calling' : ((s.atBoundary c).circuit c).dialogue.state = .calling ∨
        ((s.atBoundary c).circuit c).dialogue.state = .pollSending := by rw [read]; exact calling
    have selected' : ((s.atBoundary c).circuit c).dialogue.selected = some n := by rw [read]; exact selected
    have frame : s.onlyCircuit (s.atBoundary c) c [] := s.onlyCircuit_setCircuit c _
    obtain ⟨u, told⟩ : ∃ u, u = dialogueCharLeft c (s.atBoundary c) := ⟨_, rfl⟩
    rw [← told]
    have plain : s.onlyCircuit u c [] → (u.circuit c).control = (s.circuit c).control → (u.circuit c).send = .none →
        nextCharacter c u = takeOffered c (u.sendCompared c) ∧ u.setting c 1 = s.setting c 1 := fun frame control send => by
      have setting : u.setting c 1 = s.setting c 1 := by rw [frame.1]; rfl
      exact ⟨nextCharacter_plain (.inl (setting ▸ valid)) (by rw [State.inService, control]; exact service)
        (State.preempts_of_none (by rw [send]; rfl)), setting⟩
    by_cases h : (s.circuit c).dialogue.sequencePos < 4
    · rw [dialogueCharLeft_goes calling' selected' (by rw [read]; exact h), read] at told
      have frame' : s.onlyCircuit u c [] := told ▸ frame.set _
      have circuit := congrArg (fun v => v.circuit c) told
      simp only [State.circuit_setCircuit_self] at circuit
      obtain ⟨next, setting⟩ := plain frame' (by rw [circuit]) (by rw [circuit]; exact none)
      have read' := u.circuit_sendCompared c
      rw [setting, circuit] at read'
      have sequence : (u.sendCompared c).dialogueSequence c =
          callSequence (callLetter (s.circuit c).dialogue.state) (s.station c n) := by
        rw [State.dialogueSequence_call (n := n) (by rw [read']; exact calling) (by rw [read']; exact selected)]
        simp [State.station, read']
      have offers : (u.sendCompared c).offered c = _ := State.offered_dialogue
        (by rw [State.isParty, read']; exact party) (by rw [read']; exact calling.imp_right .inl)
      rw [sequence, read'] at offers
      obtain ⟨ch, hch⟩ : ∃ ch, (callSequence (callLetter (s.circuit c).dialogue.state) (s.station c n))[
          (s.circuit c).dialogue.sequencePos + 1]? = some ch :=
        ⟨_, List.getElem?_eq_getElem (by rw [callSequence_length]; omega)⟩
      rw [hch] at offers
      rw [next, takeOffered_dialogue offers, read']
      refine ⟨(frame'.set _).set _, fun ch' hch' => ?_, fun hp => by omega⟩
      obtain rfl : ch = ch' := Option.some.inj (hch.symm.trans hch')
      simp
    · obtain ⟨waits, circuit⟩ := dialogueCharLeft_waits calling' selected' (by rw [read]; exact Nat.not_lt.mp h)
      rw [← told] at waits circuit
      rw [read] at circuit
      have frame' : s.onlyCircuit u c [] := State.onlyCircuit_trans frame waits
      obtain ⟨next, setting⟩ := plain frame' (by rw [circuit]) (by rw [circuit]; exact none)
      have read' := u.circuit_sendCompared c
      rw [setting, circuit] at read'
      have offers : (u.sendCompared c).offered c = .none := State.offered_none (by rw [read']; exact none) (by
        rw [read']
        rcases calling with h | h <;> simp [h])
      rw [next, takeOffered_none offers, read']
      refine ⟨(frame'.set _).set _, fun ch hch => ?_, fun hp => by simp [hp]⟩
      rw [List.getElem?_eq_none (by simp; omega)] at hch
      cases hch
end

section
/-! PROOF. The message table: a record that moves on (R48, R52), release orders (R53), and the suspension condition
that follows pool and table (R76). -/

namespace Sys2Proof.Machine

/-! ### Owners after a chain's blocks change hands (R65, R73) -/

/-- What a map reads as after its values are changed and the entries that come to the default are dropped. -/
theorem Sparse.get_map_filter {α : Type} [DecidableEq α] {d : α} {m : Sparse α} (f : α → α) (hd : f d = d)
    (h : Sparse.wf d m = true) (a : Nat) :
    Sparse.get d ((m.map fun e => (e.1, f e.2)).filter fun e => decide (e.2 ≠ d)) a = f (Sparse.get d m a) := by
  induction m with
  | nil => exact hd.symm
  | cons e rest ih =>
    obtain ⟨k, w⟩ := e
    obtain ⟨-, above, lawful⟩ := Sparse.wf_cons.mp h
    have here : k = a → Sparse.above a ((rest.map fun e => (e.1, f e.2)).filter fun e => decide (e.2 ≠ d)) := by
      rintro rfl e he
      obtain ⟨e', he', rfl⟩ := List.mem_map.mp (List.mem_filter.mp he).1
      exact above e' he'
    by_cases hk : k = a
    · by_cases hf : f w = d
      · simpa [hf, Sparse.get, hk] using Sparse.get_of_above (d := d) (here hk)
      · simp [hf, Sparse.get, hk]
    · by_cases hf : f w = d
      · simpa [hf, Sparse.get, hk] using ih lawful
      · simpa [hf, Sparse.get, hk] using ih lawful

/-- Every block of a record has its new owner, and no other block (R63, R73). -/
theorem State.owner_rehome {s : State} (r : RecordIdx) (o : Owner) (h : s.mapsLawful) (b : Nat) :
    (s.rehome r o).owner b = if s.owner b = .message r then o else s.owner b := by
  have moved : (s.owners.map fun e => if e.2 = .message r then (e.1, o) else e) =
      s.owners.map fun e => (e.1, if e.2 = .message r then o else e.2) :=
    List.map_congr_left fun e _ => by split <;> rfl
  have read := Sparse.get_map_filter (fun w : Owner => if w = .message r then o else w) rfl h.2.2 b
  simp only [State.owner, State.rehome, moved]
  exact read

/-! ### A record that moves on (R48, R52) -/

/-- No delivery of the record is QUEUED or ACTIVE. -/
theorem Message.hasPending_eq_false (m : Message) : m.hasPending = false ↔
    ∀ k : SlotIdx, ∀ d, m.slots[k] = some d → d.state ≠ .queued ∧ d.state ≠ .active := by
  simp only [Message.hasPending, Delivery.isPending, allSlots, List.any_eq_false, List.mem_finRange, true_implies]
  refine forall_congr' fun k => ?_
  cases m.slots[k] <;> simp

/-- The record moves to DONE (R48). -/
def State.finished (s : State) (r : RecordIdx) : State := s.updMessage r fun m => { m with state := .done }

/-- A record in use is freed with the report of it, up to the judgement of the pool (R52, R57). -/
def State.freedAs (s : State) (r : RecordIdx) (place : Place) (kind : ReportKind) : State :=
  becomeFree r ((returnChain r s).raise place (s.tag r) kind)

/-- A record in use is freed, up to the judgement of the pool (R52). -/
abbrev State.freed (s : State) (r : RecordIdx) : State := s.freedAs r .office .messageFreed

theorem freeRecord_eq (r : RecordIdx) (s : State) : freeRecord r s = poolChanged (s.freed r) := rfl

theorem settle_stays {s : State} {r : RecordIdx}
    (h : ¬ ((s.message r).state = .routed ∧ (s.message r).hasPending = false))
    (hd : (s.message r).state ≠ .done ∨ (s.message r).hold = true) : settle r s = s := by
  have stays : ¬ ((s.message r).state = .routed && !(s.message r).hasPending) = true := by simpa using h
  simp only [settle, if_neg stays]
  exact if_neg (by rcases hd with hd | hd <;> simp [hd])

/-- With its hold standing a finished record is kept (R48). -/
theorem settle_keeps {s : State} {r : RecordIdx} (routed : (s.message r).state = .routed)
    (none : (s.message r).hasPending = false) (hold : (s.message r).hold = true) : settle r s = s.finished r := by
  simp [settle, State.finished, routed, none, hold]

theorem settle_frees_finished {s : State} {r : RecordIdx} (routed : (s.message r).state = .routed)
    (none : (s.message r).hasPending = false) (hold : (s.message r).hold = false) :
    settle r s = poolChanged ((s.finished r).freed r) := by
  simp [settle, State.finished, routed, none, hold, freeRecord_eq]

theorem settle_frees_done {s : State} {r : RecordIdx} (done : (s.message r).state = .done)
    (hold : (s.message r).hold = false) : settle r s = poolChanged (s.freed r) := by
  simp [settle, done, hold, freeRecord_eq]

/-- What the freeing of a record in use changes (R45, R52, R73). -/
theorem State.freedAs_spec {s : State} {r : RecordIdx} (place : Place) (kind : ReportKind)
    (used : (s.message r).state ≠ .free) (lawful : s.mapsLawful) :
    s.freedAs r place kind = { s with
      messages := (s.freedAs r place kind).messages
      messageDirty := (s.freedAs r place kind).messageDirty, officeDirty := true
      owners := (s.freedAs r place kind).owners
      reports := (s.raise place (s.tag r) kind).reports
      pool := (match (s.message r).head with
        | none => s.pool
        | some h => s.pool.append h (s.message r).tail (s.message r).blockCount) } ∧
    (∀ r', r' ≠ r → (s.freedAs r place kind).message r' = s.message r') ∧
    (s.freedAs r place kind).message r = Message.free (nextGeneration r (s.message r).generation) ∧
    ∀ b, (s.freedAs r place kind).owner b =
      if (s.message r).head.isSome ∧ s.owner b = .message r then .pool else s.owner b := by
  have office : ∀ u : State, u.message r = s.message r → (becomeFree r u).officeDirty = true := fun u hu => by
    have free : (Message.free (nextGeneration r (s.message r).generation)).state = .free := rfl
    simp [becomeFree, hu, used, free]
  cases hh : (s.message r).head with
  | none =>
    have chain : returnChain r s = s := by simp [returnChain, hh]
    unfold State.freedAs
    rw [chain, State.eq_iff, office _ (by simp)]
    refine ⟨by simp [becomeFree], fun r' hr => by simp [becomeFree, State.message_setMessage_ne, hr],
      by simp [becomeFree], fun b => by simp [becomeFree, State.owner]⟩
  | some h =>
    have chain : returnChain r s =
        (s.rehome r .pool).setPool (s.pool.append h (s.message r).tail (s.message r).blockCount) := by
      simp [returnChain, hh]
    have same : (returnChain r s).message r = s.message r := by rw [chain]; rfl
    unfold State.freedAs
    rw [State.eq_iff, office _ (by simpa using same), chain]
    refine ⟨by simp [becomeFree, State.raise_reports_eq], fun r' hr => ?_, ?_, fun b => ?_⟩
    · simp [becomeFree, State.message_setMessage_ne, hr]
    · simp [becomeFree]
    · simp only [Option.isSome_some, true_and]
      rw [← State.owner_rehome r .pool lawful b]
      simp [becomeFree, State.owner]

@[simp] theorem State.freedAs_store (s : State) (r : RecordIdx) (place : Place) (kind : ReportKind) :
    (s.freedAs r place kind).store = s.store := by
  have chain : (returnChain r s).store = s.store := by
    unfold returnChain
    dsimp only
    split <;> rfl
  simp [State.freedAs, becomeFree, chain]

theorem State.message_finished_self (s : State) (r : RecordIdx) :
    (s.finished r).message r = { s.message r with state := .done } := s.message_setMessage_self r _

theorem State.message_finished_ne (s : State) {r r' : RecordIdx} (h : r' ≠ r) :
    (s.finished r).message r' = s.message r' := s.message_setMessage_ne _ h

/-- The move to DONE is shown, so the record is dirty (R48, R179). -/
theorem State.finished_eq {s : State} {r : RecordIdx} (routed : (s.message r).state = .routed) :
    s.finished r = { s with
      messages := s.messages.set r { s.message r with state := .done }
      messageDirty := s.messageDirty.set r true } := by
  have shown : ({ s.message r with state := .done } : Message).shown ≠ (s.message r).shown := fun e => by
    have := congrArg Message.state e
    simp [Message.shown, routed] at this
  rw [State.eq_iff]
  simp [State.finished, routed]
  simp [State.setMessage, shown]

/-! ### Orders to the message table (R53, R163) -/

/-- A release order refused raises its report and does nothing else (R53). -/
theorem releaseOrder_refused {s : State} {tag : Word} {reason : ReleaseRefusal}
    (h : s.tagRefusal tag = some reason) :
    releaseOrder tag s = s.raise .office tag (.releaseRefused reason) := by
  simp [releaseOrder, h]

theorem releaseOrder_noHold {s : State} {tag : Word} (h : s.tagRefusal tag = none)
    (hold : (s.message (tagRecord tag)).hold = false) :
    releaseOrder tag s = s.raise .office tag (.releaseRefused .noHold) := by
  simp [releaseOrder, h, hold]

theorem releaseOrder_taken {s : State} {tag : Word} (h : s.tagRefusal tag = none)
    (hold : (s.message (tagRecord tag)).hold = true) :
    releaseOrder tag s = settle (tagRecord tag)
      (s.setMessage (tagRecord tag) { s.message (tagRecord tag) with hold := false }) := by
  simp [releaseOrder, h, hold]

/-! The checks that release and cancel orders share (R53). -/

theorem State.tagRefusal_stale {s : State} {tag : Word}
    (h : tagGeneration tag ≠ (s.message (tagRecord tag)).generation) : s.tagRefusal tag = some .stale := by
  simp [State.tagRefusal, h]

theorem State.tagRefusal_current {s : State} {tag : Word}
    (h : tagGeneration tag = (s.message (tagRecord tag)).generation) :
    s.tagRefusal tag = match (s.message (tagRecord tag)).state with
      | .free => some .free
      | .filling | .posting => some .filling
      | .routed | .done => none := by
  simp only [State.tagRefusal, h, ne_eq, not_true_eq_false, if_false] <;> rfl

end Sys2Proof.Machine

open Sys2Proof Sys2Proof.Machine

/-- Settles O34: the cases of `settle`, and the chain and the generation of a freed record. -/
theorem settleMovesARecordOn : Obligations.SettleMovesARecordOn := by
  unfold Obligations.SettleMovesARecordOn
  refine ⟨fun r s => ?_, fun p head blocks tail => ⟨fun h => if_pos h, fun old h ht => ?_⟩, fun r g _ => rfl⟩
  · simp only [← Message.hasPending_eq_false]
    refine ⟨settle_stays, fun ⟨routed, idle⟩ hold => ?_, fun ended hold lawful => ?_⟩
    · rw [settle_keeps routed idle hold, State.finished_eq routed]
    · by_cases done : (s.message r).state = .done
      · exact ⟨_, settle_frees_done done hold, State.freedAs_spec _ _ (by simp [done]) lawful⟩
      · obtain ⟨routed, idle⟩ := ended.resolve_right done
        obtain ⟨frame, others, record, owners⟩ := State.freedAs_spec .office .messageFreed (s := s.finished r) (r := r)
          (by simp [State.message_finished_self]) lawful
        refine ⟨_, settle_frees_finished routed idle hold, ?_, fun r' hr => ?_, ?_, ?_⟩
        · refine frame.trans ?_
          simp only [State.eq_iff, State.message_finished_self, State.raise_reports_eq]
          simp [State.finished, State.tag] <;> rfl
        · rw [others r' hr, State.message_finished_ne _ hr]
        · rw [record, State.message_finished_self]
        · intro b
          rw [owners b, State.message_finished_self]
          rfl
  · rw [Pool.append, if_neg h, ht]


/-- Settles O32: the checks in their order, the hold cleared, and the freeing. -/
theorem releaseOrderFreesADoneMessage : Obligations.ReleaseOrderFreesADoneMessage := by
  unfold Obligations.ReleaseOrderFreesADoneMessage
  intro tag s granted lawful
  let w := passWrite (s.relayAddress 0x2F) tag s
  have wrote : s.wroteWord w (s.relayAddress 0x2F) tag := State.wroteWord_passWrite lawful _ _
  have taken : exec (.releaseOrder tag) s = .next (releaseOrder tag w) :=
    congrArg Host.Outcome.next (presentAt_order granted (o := 0x2F) (by decide) rfl tag)
  have refused (reason : ReleaseRefusal) (e : releaseOrder tag w = w.raise .office tag (.releaseRefused reason)) :=
    exec_raise_passWrite lawful (taken.trans (congrArg _ e))
  have checks (h : tagGeneration tag = (s.message (tagRecord tag)).generation) := State.tagRefusal_current (s := w) h
  have open' (h : tagGeneration tag = (s.message (tagRecord tag)).generation)
      (used : (s.message (tagRecord tag)).state = .routed ∨ (s.message (tagRecord tag)).state = .done) :
      w.tagRefusal tag = none := by
    rcases used with e | e <;> rw [checks h, State.message_passWrite, e]
  refine ⟨fun h => refused _ (releaseOrder_refused (State.tagRefusal_stale h)),
    fun h free => refused _ (releaseOrder_refused (by rw [checks h, State.message_passWrite, free])),
    fun h filling => refused _ (releaseOrder_refused ?_),
    fun h used hold => refused _ (releaseOrder_noHold (open' h used) hold),
    fun h routed hold pending => ?_, fun h done hold => ?_⟩
  · rcases filling with e | e <;> rw [checks h, State.message_passWrite, e]
  · rw [releaseOrder_taken (open' h (.inl routed)) hold] at taken
    rw [settle_stays] at taken
    rotate_left
    · rw [State.message_setMessage_self]
      exact fun e => absurd (show (s.message (tagRecord tag)).hasPending = false from e.2) (by simp [pending])
    · exact .inl (by simp [w, routed])
    refine ⟨_, taken, ?_, State.wroteWord_congr wrote rfl, fun r' hr => ?_, ?_⟩
    · rw [State.eq_iff]
      simp [w]
    · simp [State.message_setMessage_ne, hr, w]
    · simp [w]
  · rw [releaseOrder_taken (open' h (.inr done)) hold, settle_frees_done (by simp [w, done]) (by simp)] at taken
    obtain ⟨freed, others, record, owners⟩ := State.freedAs_spec .office .messageFreed
      (s := w.setMessage (tagRecord tag) { w.message (tagRecord tag) with hold := false }) (r := tagRecord tag)
      (by simp [w, done]) (State.mapsLawful_writeStore s _ tag lawful)
    refine ⟨_, taken, ?_, State.wroteWord_congr wrote ?_, fun r' hr => ?_, ?_, fun b => ?_⟩
    · refine freed.trans ?_
      simp only [State.eq_iff, State.message_setMessage_self, State.raise_reports_eq]
      simp [w, State.tag] <;> rfl
    · exact State.freedAs_store _ _ _ _
    · rw [others r' hr, State.message_setMessage_ne _ _ hr]
      rfl
    · rw [record, State.message_setMessage_self]
      rfl
    · rw [owners b, State.message_setMessage_self]
      rfl

/-- Settles O29: the reserve word's write, the condition's two cases, and the waiting take. -/
theorem suspensionFollowsReservePoolAndTable : Obligations.SuspensionFollowsReservePoolAndTable := by
  unfold Obligations.SuspensionFollowsReservePoolAndTable
  refine ⟨fun v s granted lawful => ?_, fun s => ⟨fun h => ?_, fun suspended ended => ?_⟩,
    fun s => ⟨fun r rest htake hwait hpool => ?_, fun h => ?_⟩⟩
  · have wrote := State.wroteWord_passWrite lawful (s.relayAddress 0) v
    have lawful' : (passWrite (s.relayAddress 0) v s).mapsLawful := State.mapsLawful_writeStore s _ v lawful
    refine ⟨(passWrite (s.relayAddress 0) v s).setShadow 0 v,
      congrArg Host.Outcome.next (presentAt_granted granted (o := 0) (by decide) v), rfl, wrote,
      State.shadowAt_setShadow_self _ 0 v lawful', fun o ho => State.shadowAt_setShadow_ne _ v ho⟩
  · refine if_neg ?_
    rcases h with h | h
    · simp [h]
    · exact fun e => absurd (Bool.and_eq_true_iff.mp e).2 (by
        rw [Bool.not_eq_true', ← Bool.not_eq_true]
        exact fun k => k h)
  · refine if_pos (Bool.and_eq_true_iff.mpr ⟨suspended, ?_⟩)
    rw [Bool.not_eq_true']
    exact ended
  · simp [poolChanged, takeRequest, htake, hwait, hpool]
  · refine congrArg judgeSuspension ?_
    unfold takeRequest
    rcases h with h | h | h
    · split
      · exact absurd ‹_› h
      · rfl
    · rw [h]
      split
      · contradiction
      · rfl
    · split
      · exact if_neg (by omega)
      · rfl
end

section
/-! PROOF. The runs of the M-port and the block writer's turns (chapters 2, 4 and 6): one law of what a run's end does
to the state, and the effects of the runs on top of it. -/

namespace Sys2Proof.Machine

theorem State.setPool_officeDirty_eq (s : State) (p : Pool) : (s.setPool p).officeDirty =
    (s.officeDirty || decide (p.count ≠ s.pool.count) || (p.give.isSome != s.pool.give.isSome)) := rfl

theorem State.setPost_officeDirty_eq (s : State) (w : Option Walk) (o : PostOutcome) :
    (s.setPost w o).officeDirty =
      (s.officeDirty || (w.isSome != s.walk.isSome) || decide (o ≠ s.postOutcome)) := rfl

/-! ### The end of a run -/

/-- The state after the writes of a run, the arbiter FREE. -/
def State.ran (s : State) (writes : List (Nat × Word)) : State := { makeWrites writes s with arbiter := .free }

theorem State.ran_eq (s : State) (writes : List (Nat × Word)) :
    s.ran writes = { s with store := (s.ran writes).store, arbiter := .free } := by
  unfold State.ran
  rw [makeWrites_eq]

@[simp] theorem State.ran_nil (s : State) : s.ran [] = { s with arbiter := .free } := rfl

theorem State.ran_single (s : State) (o : Nat) (v : Word) :
    s.ran [(o, v)] = { s.writeRelay o v with arbiter := .free } := rfl

theorem State.runWrites_arbiter (s : State) (a : Arbiter) (run : Run) :
    ({ s with arbiter := a } : State).runWrites run = s.runWrites run := by
  cases run <;> rfl

theorem makeWrites_arbiter (ws : List (Nat × Word)) (s : State) (a : Arbiter) :
    makeWrites ws { s with arbiter := a } = { makeWrites ws s with arbiter := a } := by
  induction ws generalizing s with
  | nil => rfl
  | cons w ws ih => exact ih (s.writeRelay w.1 w.2)

/-- A run whose grant changes the arbiter alone ends with the writes not yet made, wherever it stands. -/
theorem onRun_ends {effect : Run → Option (State → State)} {f : State → State} {s : State} {run : Run} {made : Nat}
    (due : s.arbiter = .granted run made ∨ (made = 0 ∧ s.nextRun = some run)) (own : run ≠ .passage)
    (plain : grantRun run s = { s with arbiter := .granted run 0 }) (hf : effect run = some f) :
    onRun effect s = f (s.ran ((s.runWrites run).drop made)) := by
  rcases due with busy | ⟨rfl, next⟩
  · have shut : s.arbiter.open = false := by
      rw [busy]
      cases run <;> first | rfl | exact absurd rfl own
    exact onRun_inProgress busy shut hf
  · rw [onRun_granted next hf, endRun, plain, State.runWrites_arbiter, makeWrites_arbiter]
    rfl

/-- The end of a run that only reads. -/
theorem endRun_reads {s : State} {run : Run} (made : Nat) (reads : s.runWrites run = []) :
    endRun run made s = { s with arbiter := .free } := by
  rw [endRun, reads, List.drop_nil]
  rfl

/-- A run due at its first cycle makes all its writes. -/
theorem onRun_whole {effect : Run → Option (State → State)} {f : State → State} {s : State} {run : Run}
    (due : s.runDue run) (own : run ≠ .passage)
    (plain : grantRun run s = { s with arbiter := .granted run 0 }) (hf : effect run = some f) :
    onRun effect s = f (s.ran (s.runWrites run)) :=
  onRun_ends (made := 0) (due.imp_right fun next => ⟨rfl, next⟩) own plain hf

/-- A run that only reads frees the arbiter. -/
theorem onRun_read {effect : Run → Option (State → State)} {f : State → State} {s : State} {run : Run}
    (due : s.readDue run) (own : run ≠ .passage) (reads : s.runWrites run = [])
    (plain : grantRun run s = { s with arbiter := .granted run 0 }) (hf : effect run = some f) :
    onRun effect s = f { s with arbiter := .free } := by
  have ended : ∀ made, (s.arbiter = .granted run made ∨ (made = 0 ∧ s.nextRun = some run)) →
      onRun effect s = f { s with arbiter := .free } := fun made h => by
    rw [onRun_ends h own plain hf, reads, List.drop_nil, State.ran_nil]
  rcases due with ⟨made, busy⟩ | next
  · exact ended made (.inl busy)
  · exact ended 0 (.inr ⟨rfl, next⟩)

/-- A read of the fetcher frees the arbiter; granted by the same event, it also counts its circuit as served. -/
theorem onRun_fetch {effect : Run → Option (State → State)} {g : State → State} {s : State} {run : Run} {c : Circuit}
    (due : s.readDue run) (shut : ∀ made, (Arbiter.granted run made).open = false) (reads : ∀ u, State.runWrites u run = [])
    (serves : grantRun run s = { s with arbiter := .granted run 0, fetchLast := c }) (hg : effect run = some g) :
    onRun effect s = g { s with arbiter := .free, fetchLast := if s.arbiter.open then c else s.fetchLast } := by
  rcases due with ⟨made, busy⟩ | next
  · rw [onRun_inProgress busy (by rw [busy]; exact shut made) hg, endRun_reads made (reads s), busy, shut]
    rfl
  · rw [onRun_granted next hg, endRun_reads 0 (reads _), serves, State.open_of_nextRun next]
    rfl

/-- A read whose fetch has been stopped since its grant frees the arbiter and does nothing more (log 45). -/
theorem fetchBlockRead_stopped {s : State} {c : Circuit} {f : Fetch} (h : (s.circuit c).send.fetch ≠ some f) :
    fetchBlockRead c f s = s := if_neg h

theorem fetchTextRead_stopped {s : State} {c : Circuit} {f : Fetch} (h : (s.circuit c).send.fetch ≠ some f) :
    fetchTextRead c f s = s := by
  unfold fetchTextRead
  split
  · exact if_neg h
  · rfl

/-- A change of a send controller, and all it leaves as it was. -/
theorem State.updSend_spec (s : State) (c : Circuit) (f : SendController → SendController) :
    s.updSend c f = { s with circuits := (s.updSend c f).circuits, circuitDirty := (s.updSend c f).circuitDirty } ∧
    s.othersKept (s.updSend c f) c ∧
    (s.updSend c f).circuit c = { s.circuit c with send := f (s.circuit c).send } := by
  refine ⟨?_, fun d hd => ⟨?_, ?_⟩, ?_⟩
  · rw [State.eq_iff]
    simp
  · simp [State.circuit_setCircuit_ne, hd]
  · simp [hd]
  · simp

/-- What a text word read gives and leaves, with a run that has characters left (R105, R106). -/
theorem Fetch.readText_eq {f : Fetch} {run : BlockFetch} (w : Word) (some' : 0 < run.left) (within : run.left ≤ f.toFetch) :
    f.readText run w = ([firstChar w, secondChar w].take (min run.left 2),
      if f.toFetch = min run.left 2 then none
      else if run.left = min run.left 2 then
        some { block := run.link.toNat, toFetch := f.toFetch - min run.left 2, run := none }
      else some { f with
        toFetch := f.toFetch - min run.left 2
        run := some { run with left := run.left - min run.left 2, word := run.word + 1 } }) := by
  have ends : f.toFetch - min run.left 2 = 0 ↔ f.toFetch = min run.left 2 := by omega
  have block : run.left - min run.left 2 = 0 ↔ run.left = min run.left 2 := by omega
  have chars : (if min run.left 2 = 2 then [firstChar w, secondChar w] else [firstChar w]) =
      [firstChar w, secondChar w].take (min run.left 2) := by
    split
    · next two => rw [two]; rfl
    · next one =>
      have : min run.left 2 = 1 := by omega
      rw [this]
      rfl
  simp only [Fetch.readText, ends, block, chars]

/-! ### The block writer's turn -/

theorem textCharacterTaken_turn {s : State} {c : Circuit} {v : RelayChar} {r : RecordIdx} {rest : List FifoItem}
    (idle : s.writer.writes = []) (turn : s.nextServed = some c) (head : (s.circuit c).textFifo = .char v r :: rest) :
    textCharacterTaken s = if (s.fill r).needsBlock then requestBlock r s else placeCharacter c v r s := by
  simp [textCharacterTaken, idle, turn, head]

theorem endingReached_turn {s : State} {c : Circuit} {r : RecordIdx} {cause : EndCause} {rest : List FifoItem}
    (idle : s.writer.writes = []) (turn : s.nextServed = some c)
    (head : (s.circuit c).textFifo = .ending r cause :: rest) :
    endingReached s =
      (let u := { s with writer := { s.writer with turn := c + 1 } }.updFifo c List.tail
       match (s.fill r).current with
       | none => takeReceived r cause u
       | some b => { u with writer := { u.writer with writes := endingWrites (s.fill r) b r cause } }) := by
  simp only [endingReached, idle, turn, head, List.isEmpty_nil, if_true, List.head?_cons]
  rfl

theorem Fill.needsBlock_eq_false {f : Fill} {b : Nat} (current : f.current = some b) (room : f.position < 60) :
    f.needsBlock = false := by
  have full : f.position ≠ 60 := by omega
  simp [Fill.needsBlock, current, show Config.blockCharacters = 60 from rfl, full]

/-- A FIFO that loses its head shows nothing new (R179). -/
theorem State.updFifo_spec (s : State) (c : Circuit) (f : List FifoItem → List FifoItem) :
    s.updFifo c f = { s with circuits := (s.updFifo c f).circuits, circuitDirty := (s.updFifo c f).circuitDirty } ∧
    s.othersKept (s.updFifo c f) c ∧
    (s.updFifo c f).circuit c = { s.circuit c with textFifo := f (s.circuit c).textFifo } := by
  refine ⟨?_, fun d hd => ⟨?_, ?_⟩, ?_⟩
  · rw [State.eq_iff]
    simp
  · simp [State.circuit_setCircuit_ne, hd]
  · simp [hd]
  · simp

/-! ### What the block writer's writes lead to -/

theorem blockWriteDone_due {s : State} {w : BlockWrite} (due : s.runDue (.blockWrite w)) :
    blockWriteDone s = blockWritten w (s.ran [(w.offset, w.value)]) :=
  onRun_whole (effect := fun
    | .blockWrite w => some (blockWritten w)
    | _ => none) due (by simp) rfl rfl

theorem blockWritten_first {s : State} {w : BlockWrite} {rest : List BlockWrite} (writes : s.writer.writes = w :: rest) :
    blockWritten w s = afterWrite w.after { s with writer := { s.writer with writes := rest } } := by
  simp [blockWritten, writes]

theorem blockWritten_withdrawn {s : State} {w : BlockWrite} (writes : s.writer.writes.head? ≠ some w) :
    blockWritten w s = s := by
  cases h : s.writer.writes with
  | nil => simp [blockWritten, h]
  | cons first rest =>
    have other : first ≠ w := by simpa [h] using writes
    simp [blockWritten, h, other]

/-- The one word that a run of one write puts in the store. -/
theorem State.wroteWord_ran {s : State} (lawful : s.mapsLawful) (o : Nat) (v : Word) :
    s.wroteWord (s.ran [(o, v)]) (s.relayAddress o) v :=
  State.wroteWord_congr (State.wroteWord_writeRelay lawful o v) rfl

/-! ### A message with no block -/

theorem State.setMessage_same (s : State) (r : RecordIdx) : s.setMessage r (s.message r) = s := by
  rw [State.eq_iff]
  simp [State.message]
  simp [State.setMessage, State.message]

/-- The block writer has let go of the record, its end cause noted in the flags (R42). -/
def State.letGo (s : State) (r : RecordIdx) (cause : EndCause) : State :=
  (s.setFill r .empty).updFlags r fun f => { f with missingEnd := f.missingEnd || decide (cause = .missingEnd) }

theorem State.message_letGo (s : State) (r : RecordIdx) (cause : EndCause) : (s.letGo r cause).message r =
    { s.message r with flags := { (s.message r).flags with
        missingEnd := (s.message r).flags.missingEnd || decide (cause = .missingEnd) } } :=
  State.message_setMessage_self _ _ _

/-- What the message table does with a record let go, by its flags (R42, R49). -/
theorem takeReceived_eq (s : State) (r : RecordIdx) (cause : EndCause) : takeReceived r cause s =
    if ((s.letGo r cause).message r).flags.wholeIntercept then interceptRecord r (s.letGo r cause)
    else routeRecord r ((s.letGo r cause).message r).originPlace (fun m => .messageIn m.flagWord) (s.letGo r cause) := by
  have noted : (if cause = .missingEnd then (s.setFill r .empty).updFlags r fun f => { f with missingEnd := true }
      else s.setFill r .empty) = s.letGo r cause := by
    by_cases h : cause = .missingEnd
    · simp [State.letGo, h]
    · rw [if_neg h]
      simp only [State.letGo, State.updFlags_eq, h, decide_false, Bool.or_false]
      exact (State.setMessage_same (s.setFill r .empty) r).symm
  unfold takeReceived
  dsimp only
  rw [noted]

/-- A received message with no block that goes to intercept as a whole, its hold standing, is DONE and held (R42,
R49). -/
theorem takeReceived_intercepts {s : State} {r : RecordIdx} {cause : EndCause}
    (filling : (s.message r).state = .filling) (hold : (s.message r).hold = true)
    (whole : cause = .missingEnd ∨ (s.message r).flags.wholeIntercept = true) :
    let after : Message := { s.message r with
      state := .done, receiptMinute := some s.minute
      interceptSet := BitVec.ofNat 8 (2 ^ (s.message r).destinations.length - 1)
      flags := { (s.message r).flags with
        intercept := true
        missingEnd := (s.message r).flags.missingEnd || decide (cause = .missingEnd) } }
    let told := s.raise (s.message r).originPlace (s.tag r) (.messageIn after.flagWord)
    let t := takeReceived r cause s
    t = { s with
      fills := t.fills, messages := t.messages, messageDirty := t.messageDirty
      reports := told.reports, officeDirty := told.officeDirty } ∧
    (∀ r' : RecordIdx, r' ≠ r → t.message r' = s.message r' ∧ t.fill r' = s.fill r') ∧
    t.fill r = .empty ∧ t.message r = after := by
  intro after told t
  have whole' : ((s.letGo r cause).message r).flags.wholeIntercept = true := by
    rw [State.message_letGo]
    rcases whole with rfl | h
    · simp [MessageFlags.wholeIntercept]
    · simp only [MessageFlags.wholeIntercept, Bool.or_eq_true] at h ⊢
      tauto
  obtain ⟨u, hu⟩ : ∃ u : State, u = (s.letGo r cause).setMessage r after := ⟨_, rfl⟩
  have after' : u.message r = after := by
    rw [hu]
    exact State.message_setMessage_self _ _ _
  have form : t = u.raise (s.message r).originPlace (s.tag r) (.messageIn after.flagWord) := by
    have : t = settle r (u.raise (u.message r).originPlace (u.tag r) (.messageIn (u.message r).flagWord)) := by
      rw [hu]
      change takeReceived r cause s = _
      rw [takeReceived_eq, if_pos whole', interceptRecord, State.updMessage_eq, State.message_letGo]
      rfl
    rw [this, settle_stays (by simp [after', after]) (by simp [after', after, hold]), State.tag, after']
    rfl
  rw [form, hu]
  refine ⟨?_, fun r' hr => ?_, ?_, ?_⟩
  · rw [State.eq_iff]
    simp [State.raise_reports_eq, State.raise_officeDirty_eq, State.letGo, told, after, filling]
  · simp [State.letGo, State.message_setMessage_ne, hr, State.fill_setFill_ne]
  · simp [State.letGo]
  · simp

end Sys2Proof.Machine

open Sys2Proof Sys2Proof.Machine

/-- Settles O23: the character's place by its position's parity, and the request for a block. -/
theorem textCharacterTakenFillsOrAsksForABlock : Obligations.TextCharacterTakenFillsOrAsksForABlock := by
  unfold Obligations.TextCharacterTakenFillsOrAsksForABlock
  refine ⟨fun c v r rest b s idle turn head current room => ?_, fun c v r rest s idle turn head needs none' => ?_⟩
  · have taken : exec .textCharacterTaken s = .next (placeCharacter c v r s) := congrArg Host.Outcome.next (by
      rw [textCharacterTaken_turn idle turn head, Fill.needsBlock_eq_false current room]
      rfl)
    refine ⟨_, taken, fun even => ?_, fun odd => ?_⟩
    · obtain ⟨same, others, at'⟩ := State.updFifo_spec
        (State.setFill { s with writer := { s.writer with turn := c + 1 } } r
          { s.fill r with position := (s.fill r).position + 1, assembled := some v }) c List.tail
      have placed : placeCharacter c v r s = State.updFifo
          (State.setFill { s with writer := { s.writer with turn := c + 1 } } r
            { s.fill r with position := (s.fill r).position + 1, assembled := some v }) c List.tail := by
        simp only [placeCharacter]
        exact if_pos even
      rw [placed]
      refine ⟨same.trans ?_, others, at'.trans ?_, fun r' hr => ?_, ?_⟩
      · rw [State.eq_iff]
        simp
      · simp only [State.circuit_setFill]
        exact congrArg (fun l => { s.circuit c with textFifo := l }) (congrArg List.tail head)
      · simp only [State.updFifo_eq, State.fill_setCircuit]
        exact State.fill_setFill_ne _ _ hr
      · simp only [State.updFifo_eq, State.fill_setCircuit]
        exact State.fill_setFill_self _ _ _
    · have notEven : ¬ (s.fill r).position % 2 = 0 := by omega
      refine (if_neg notEven).trans ?_
      simp only [idle, current]
      rfl
  · have needs' : (s.fill r).needsBlock = true := by
      rcases needs with h | h <;> simp [Fill.needsBlock, h, show Config.blockCharacters = 60 from rfl]
    have asks : exec .textCharacterTaken s = .next (requestBlock r s) := congrArg Host.Outcome.next (by
      rw [textCharacterTaken_turn idle turn head, needs']
      rfl)
    refine ⟨fun some' => asks.trans (congrArg _ ?_), fun empty => asks.trans (congrArg _ ?_)⟩
    · have count : s.pool.count ≠ 0 := by omega
      simp [requestBlock, none', count]
    · simp only [requestBlock, empty, none', takeRequest]
      simp only [decide_true, Bool.true_or, if_true, List.nil_append]
      split <;> simp_all

/-- Settles O24: the word is written by the run, and what follows is the write's own. -/
theorem ownWritesStoreTheirWords : Obligations.OwnWritesStoreTheirWords := by
  unfold Obligations.OwnWritesStoreTheirWords
  refine ⟨fun w rest s due writes lawful => ?_, fun w s busy withdrawn lawful => ?_, fun b head s due lawful => ?_⟩
  · have wrote := State.wroteWord_ran lawful w.offset w.value
    obtain ⟨u, hu⟩ : ∃ u : State, u = { s.ran [(w.offset, w.value)] with writer := { s.writer with writes := rest } } :=
      ⟨_, rfl⟩
    have form : u = { s with store := u.store, arbiter := .free, writer := { s.writer with writes := rest } } := by
      rw [hu]
      rfl
    have wrote' : s.wroteWord u (s.relayAddress w.offset) w.value := State.wroteWord_congr wrote (by rw [hu])
    have done : exec .blockWriteDone s = .next (afterWrite w.after u) := congrArg Host.Outcome.next (by
      rw [hu]
      exact (blockWriteDone_due due).trans (blockWritten_first (s := s.ran [(w.offset, w.value)]) writes))
    refine ⟨fun plain => ⟨u, ?_, form, wrote'⟩, fun c r leave => ?_, fun r cause letGo => ⟨u, ?_, form, wrote'⟩⟩
    · rw [done]
      rcases plain with h | ⟨r, h, kept⟩
      · rw [h]
        rfl
      · have kept' : (u.fill r).cancelled = false := by
          rw [hu]
          exact kept
        simp [h, afterWrite, kept']
    · obtain ⟨same, others, at'⟩ := State.updFifo_spec
        (u.setFill r { u.fill r with position := (u.fill r).position + 1, assembled := none }) c List.tail
      rw [leave] at done
      subst hu
      refine ⟨_, done, same.trans ?_, State.wroteWord_congr wrote' (by rw [afterWrite, same]; rfl), others, at',
        fun r' hr => ?_, ?_⟩
      · rw [State.eq_iff]
        simp [State.ran_single, afterWrite]
      · simp only [afterWrite, State.updFifo_eq, State.fill_setCircuit]
        exact State.fill_setFill_ne _ _ hr
      · simp only [afterWrite, State.updFifo_eq, State.fill_setCircuit]
        exact State.fill_setFill_self _ _ _
    · rw [done, letGo]
      rfl
  · have shut : s.arbiter.open = false := by rw [busy]; rfl
    have done : blockWriteDone s = blockWritten w (s.ran [(w.offset, w.value)]) :=
      onRun_ends (made := 0) (effect := fun
        | .blockWrite w => some (blockWritten w)
        | _ => none) (.inl busy) (by simp) rfl rfl
    rw [blockWritten_withdrawn (s := s.ran [(w.offset, w.value)]) withdrawn] at done
    exact ⟨_, congrArg Host.Outcome.next done, rfl, State.wroteWord_ran lawful w.offset w.value⟩
  · have done : returnWriteDone s = returnWritten b head (s.ran [(offBlock b 0, BitVec.ofNat 16 head)]) :=
      onRun_whole (effect := fun
        | .returnWrite t h => some (returnWritten t h)
        | _ => none) due (by simp) rfl rfl
    exact ⟨_, congrArg Host.Outcome.next done, rfl,
      State.wroteWord_congr (State.wroteWord_ran lawful _ _) rfl⟩

/-- Settles O25: the writes that complete a chain, and a message with no block let go at once. -/
theorem endingReachedClosesTheMessage : Obligations.EndingReachedClosesTheMessage := by
  unfold Obligations.EndingReachedClosesTheMessage
  refine ⟨fun c r cause rest b s idle turn head current => ?_,
    fun c r cause rest s idle turn head none' filling hold whole => ?_⟩
  all_goals
    obtain ⟨u, hu⟩ : ∃ u : State, u = { s with writer := { s.writer with turn := c + 1 } }.updFifo c List.tail :=
      ⟨_, rfl⟩
    obtain ⟨same, others, at'⟩ := State.updFifo_spec { s with writer := { s.writer with turn := c + 1 } } c List.tail
    rw [← hu] at same others at'
    have popped : u.circuit c = { s.circuit c with textFifo := rest } :=
      at'.trans (congrArg (fun l => { s.circuit c with textFifo := l }) (congrArg List.tail head))
    have taken := endingReached_turn idle turn head
  · simp only [current, ← hu] at taken
    refine ⟨_, congrArg Host.Outcome.next taken, ?_, others, popped, ?_⟩
    · rw [State.eq_iff, same]
      simp
    · by_cases odd : (s.fill r).position % 2 = 1
      · have half : ((s.fill r).position - 1) / 2 = (s.fill r).position / 2 := by omega
        simp [endingWrites, odd, half, chBlank]
      · simp [endingWrites, odd]
  · simp only [none', ← hu] at taken
    have same' : u.message r = s.message r := by rw [hu]; rfl
    obtain ⟨form, kept, cleared, after⟩ := takeReceived_intercepts (s := u) (r := r) (cause := cause)
      (by rw [same', filling]) (by rw [same', hold]) (by rw [same']; exact whole)
    have circuits : ∀ d, (takeReceived r cause u).circuit d = u.circuit d := fun d => by rw [form]; rfl
    have dirty : (takeReceived r cause u).circuitDirty = u.circuitDirty := by rw [form]
    have told : ∀ k, (u.raise (u.message r).originPlace (u.tag r) k).reports =
        (s.raise (s.message r).originPlace (s.tag r) k).reports ∧
        (u.raise (u.message r).originPlace (u.tag r) k).officeDirty =
        (s.raise (s.message r).originPlace (s.tag r) k).officeDirty := fun k => by
      rw [State.tag, same', hu]
      exact ⟨by simp [State.raise_reports_eq, State.tag], by simp [State.raise_officeDirty_eq, State.tag]⟩
    have minute : u.minute = s.minute := by rw [hu]; rfl
    refine ⟨_, congrArg Host.Outcome.next taken, ?_, fun d hd => ?_, ?_, fun r' hr => ?_, cleared, ?_⟩
    · rw [(told _).1, (told _).2, same', minute] at form
      rw [State.eq_iff, form, same]
      simp
    · rw [circuits, dirty]
      exact others d hd
    · rw [circuits, popped]
    · rw [(kept r' hr).1, (kept r' hr).2, hu]
      exact ⟨rfl, rfl⟩
    · rw [after, same', minute]

/-- Settles O26: the take's read is made, and the removal of the head follows it. -/
theorem takeMovesThePoolHeadToTheMessage : Obligations.TakeMovesThePoolHeadToTheMessage := by
  unfold Obligations.TakeMovesThePoolHeadToTheMessage
  intro r b s due take head kept lawful
  have taken : takeComplete s = completeTake r b { s with arbiter := .free } :=
    (onRun_read (effect := fun
      | .take => some takeRead
      | _ => none) due (by simp) rfl rfl rfl).trans (by simp [takeRead, take, head])
  obtain ⟨u, hu⟩ : ∃ u : State, u = { (((((State.setPool { s with arbiter := .free }
      (s.pool.removeHead b (s.readRelay (offBlock b 0)))).setOwner b (.message r)).updMessage r
        fun m => m.addBlock b)).setFill r { s.fill r with current := some b, position := 0, assembled := none }) with
      writer := { s.writer with
        waiting := s.writer.waiting.filter fun x => decide (x ≠ r)
        writes := s.writer.writes ++ (match (s.fill r).current with
          | some old => joinWrites old b r
          | none => []) } } := ⟨_, rfl⟩
  have form : completeTake r b { s with arbiter := .free } = poolChanged u := by
    have kept' : ((State.fill { s with arbiter := .free } r).cancelled && (s.fill r).current.isNone) ≠ true := by
      rw [show State.fill { s with arbiter := .free } r = s.fill r from rfl, kept]
      simp
    rw [hu]
    unfold completeTake
    dsimp only
    exact congrArg poolChanged (if_neg kept')
  refine ⟨u, congrArg Host.Outcome.next (taken.trans form), ?_, ?_, fun b' hb => ?_, fun r' hr => ⟨?_, ?_⟩, ?_, ?_⟩
  all_goals rw [hu]
  · have fewer : s.pool.count - 1 = s.pool.count ↔ ¬ 0 < s.pool.count := by omega
    rw [State.eq_iff]
    simp [State.setPool_officeDirty_eq, Pool.removeHead, Message.addBlock, fewer, joinWrites, Nat.pos_iff_ne_zero,
      show Config.blockCharacters = 60 from rfl] <;> rfl
  · exact State.owner_setOwner_self (State.setPool { s with arbiter := .free } _) b _ lawful
  · exact State.owner_setOwner_ne (State.setPool { s with arbiter := .free } _) _ hb
  · exact State.message_setMessage_ne _ _ hr
  · exact State.fill_setFill_ne _ _ hr
  · exact State.fill_setFill_self _ _ _
  · exact State.message_setMessage_self _ _ _

/-- Settles O27: the read's run frees the arbiter, and what was read goes into the fetch that is still on. -/
theorem textFetchReadsTheChain : Obligations.TextFetchReadsTheChain := by
  unfold Obligations.TextFetchReadsTheChain
  refine fun c f s => ⟨fun standing => ⟨fun fresh due => ?_, fun run on due some' within => ?_⟩, fun stopped made =>
    ⟨fun busy => congrArg Host.Outcome.next ?_, fun busy => congrArg Host.Outcome.next ?_⟩⟩
  · have done : fetchBlockReadDone s = fetchBlockRead c f
        { s with arbiter := .free, fetchLast := if s.arbiter.open then c else s.fetchLast } :=
      onRun_fetch (effect := fun
        | .fetchBlock c f => some (fetchBlockRead c f)
        | _ => none) due (fun _ => rfl) (fun _ => rfl) rfl rfl
    obtain ⟨same, others, at'⟩ := State.updSend_spec
      { s with arbiter := .free, fetchLast := if s.arbiter.open then c else s.fetchLast } c
      fun x => { x with fetch := some (f.readBlock (s.readRelay (offBlock f.block 1)) (s.readRelay (offBlock f.block 0))) }
    refine ⟨_, congrArg Host.Outcome.next (done.trans (if_pos standing)), same, others, at'.trans ?_⟩
    dsimp only
    refine congrArg (fun x => { s.circuit c with send := { (s.circuit c).send with fetch := x } }) ?_
    simp only [Fetch.readBlock, blockCountOf, fresh]
    exact apply_ite some _ _ _
  · have done : fetchTextReadDone s = fetchTextRead c f
        { s with arbiter := .free, fetchLast := if s.arbiter.open then c else s.fetchLast } :=
      onRun_fetch (effect := fun
        | .fetchText c f => some (fetchTextRead c f)
        | _ => none) due (fun _ => rfl) (fun _ => rfl) rfl rfl
    obtain ⟨same, others, at'⟩ := State.updSend_spec
      { s with arbiter := .free, fetchLast := if s.arbiter.open then c else s.fetchLast } c
      fun x => { x with
        fifo := x.fifo ++ (f.readText run (s.readRelay (offBlock f.block (2 + run.word)))).1
        fetch := (f.readText run (s.readRelay (offBlock f.block (2 + run.word)))).2 }
    have read : fetchTextRead c f
        { s with arbiter := .free, fetchLast := if s.arbiter.open then c else s.fetchLast } =
        State.updSend { s with arbiter := .free, fetchLast := if s.arbiter.open then c else s.fetchLast } c fun x =>
          { x with
            fifo := x.fifo ++ (f.readText run (s.readRelay (offBlock f.block (2 + run.word)))).1
            fetch := (f.readText run (s.readRelay (offBlock f.block (2 + run.word)))).2 } := by
      unfold fetchTextRead
      rw [on]
      exact if_pos standing
    refine ⟨_, congrArg Host.Outcome.next (done.trans read), same, others, at'.trans ?_⟩
    rw [Fetch.readText_eq _ some' within]
    rfl
  · refine (onRun_inProgress (effect := fun
      | .fetchBlock c f => some (fetchBlockRead c f)
      | _ => none) busy (by rw [busy]; rfl) rfl).trans ?_
    rw [endRun_reads made rfl]
    exact fetchBlockRead_stopped (s := { s with arbiter := .free }) stopped
  · refine (onRun_inProgress (effect := fun
      | .fetchText c f => some (fetchTextRead c f)
      | _ => none) busy (by rw [busy]; rfl) rfl).trans ?_
    rw [endRun_reads made rfl]
    exact fetchTextRead_stopped (s := { s with arbiter := .free }) stopped
end

section
/-! PROOF. The give build and the post walk (chapters 3 and 4). -/

namespace Sys2Proof.Machine

/-- A requester offers only runs of its own. -/
theorem State.requester_of_runOf {s : State} {q : Requester} {run : Run} (h : s.runOf q = some run) :
    run.requester = q := by
  cases q with
  | passage => cases h
  | blockWriter =>
    obtain ⟨w, -, rfl⟩ := Option.map_eq_some_iff.mp h
    rfl
  | fetcher =>
    obtain ⟨c, -, h'⟩ := Option.bind_eq_some_iff.mp h
    obtain ⟨f, -, rfl⟩ := Option.map_eq_some_iff.mp h'
    split <;> rfl
  | poolUnit =>
    simp only [State.runOf, State.poolRun] at h
    split at h
    case h_5 =>
      obtain ⟨e, -, rfl⟩ := Option.map_eq_some_iff.mp h
      rfl
    all_goals cases h <;> rfl
  | reportWriter =>
    cases h
    rfl
  | mirrorWriter =>
    obtain ⟨m, -, rfl⟩ := Option.map_eq_some_iff.mp h
    rfl

/-- A run of the pool unit that is granted next is its next work. -/
theorem State.poolRun_of_nextRun {s : State} {run : Run} (h : s.nextRun = some run) (own : run.requester = .poolUnit) :
    s.poolRun = some run := by
  obtain ⟨q, -, offered⟩ := State.nextRun_eq_some.mp h
  have := State.requester_of_runOf offered
  rw [own] at this
  subst this
  exact offered

/-! ### The give build -/

theorem giveEnd_goes {s : State} {g : Give} (give : s.pool.give = some g) (h : g.position < g.stop) :
    giveEnd s = s := by
  simp [giveEnd, give, h]

theorem giveEnd_ends {s : State} {g : Give} (give : s.pool.give = some g) (h : g.stop ≤ g.position) :
    giveEnd s = (s.setPool { s.pool with give := none }).raise .office (BitVec.ofNat 16 g.given)
      (.giveDone g.skipped) := by
  simp [giveEnd, give, h]

theorem giveOrder_busy {s : State} {g : Give} (count : Word) (give : s.pool.give = some g) :
    giveOrder count s = s.raise .office 0 (.commandRefused .busy 0) := by
  simp [giveOrder, give]

/-- An order over a range that is not empty begins its build (R69). -/
theorem giveOrder_builds {s : State} {count : Word} (give : s.pool.give = none)
    (h : (s.shadowAt 0x2D).toNat < min ((s.shadowAt 0x2D).toNat + count.toNat) 3584) :
    giveOrder count s = { s with
      officeDirty := true
      pool := { s.pool with
        give := some {
          position := (s.shadowAt 0x2D).toNat, stop := min ((s.shadowAt 0x2D).toNat + count.toNat) 3584
          given := 0, skipped := 0 } } } := by
  simp only [giveOrder, give]
  rw [giveEnd_goes rfl h, State.eq_iff]
  simp [State.setPool_officeDirty_eq, give]
  exact ⟨rfl, rfl⟩

/-- One over an empty range ends at once (R69, R71). -/
theorem giveOrder_empty {s : State} {count : Word} (give : s.pool.give = none)
    (h : min ((s.shadowAt 0x2D).toNat + count.toNat) 3584 ≤ (s.shadowAt 0x2D).toNat) :
    giveOrder count s = { s with officeDirty := true, reports := (s.raise .office 0 (.giveDone 0)).reports } := by
  have pool : s.pool = { s.pool with give := none } := by rw [← give]
  simp only [giveOrder, give]
  rw [giveEnd_ends rfl h, State.eq_iff]
  simp [State.setPool_officeDirty_eq, State.raise_reports_eq, State.raise_officeDirty_eq, give, ← pool]

theorem giveOrder_store (count : Word) (s : State) : (giveOrder count s).store = s.store := by
  unfold giveOrder giveEnd
  dsimp only
  split
  · simp
  · simp only [State.setPool_pool]
    split <;> simp

/-- The build after a step, and its end where that was the last block (R70, R71). -/
theorem giveEnd_step (s : State) (p : Pool) (next : Give) (hn : p.give = some next) (g : Give)
    (give : s.pool.give = some g) (stop : next.stop = g.stop) (position : next.position = g.position + 1) :
    giveEnd (s.setPool p) =
      (let last : Prop := g.stop ≤ g.position + 1
       let base : State := { s with
         officeDirty := s.officeDirty || decide (p.count ≠ s.pool.count) || decide last }
       { (if last then base.raise .office (BitVec.ofNat 16 next.given) (.giveDone next.skipped) else base) with
         pool := { p with give := if last then none else some next } }) := by
  dsimp only
  by_cases last : g.stop ≤ g.position + 1
  · rw [giveEnd_ends (g := next) hn (by omega), if_pos last, if_pos last, State.eq_iff]
    simp [State.setPool_officeDirty_eq, State.raise_reports_eq, State.raise_officeDirty_eq, hn, give, last]
  · rw [giveEnd_goes (g := next) hn (by omega), if_neg last, if_neg last, State.eq_iff]
    simp [State.setPool_officeDirty_eq, hn, give, last]
    rw [← hn]

theorem giveStep_joins {s : State} {g : Give} {made : Nat} (give : s.pool.give = some g)
    (due : s.arbiter = .granted .give made ∨ (made = 0 ∧ s.nextRun = some .give)) :
    giveStep s = giveJoin g (s.ran ((s.pool.giveWrites g.position).drop made)) := by
  have run : ¬ (s.poolUnitIdle && decide (s.poolWork = some .giveSkip)) = true := by
    rcases due with busy | ⟨-, next⟩
    · simp [State.poolUnitIdle, busy, Run.requester]
    · have offered : s.poolRun = some .give := State.poolRun_of_nextRun next rfl
      have work : s.poolWork ≠ some .giveSkip := fun e => by simp [State.poolRun, e] at offered
      simp [work]
  rw [giveStep, if_neg run, onRun_ends (f := onGive giveJoin) due (by simp) rfl rfl]
  have writes : s.runWrites .give = s.pool.giveWrites g.position := by simp [State.runWrites, give]
  have give' : (s.ran ((s.pool.giveWrites g.position).drop made)).pool.give = some g := by
    rw [State.ran_eq]
    exact give
  rw [writes, onGive, give']

theorem giveStep_skips {s : State} {g : Give} (give : s.pool.give = some g) (idle : s.poolUnitIdle = true)
    (free : s.pool.take = none) (other : s.owner g.position ≠ .processor) : giveStep s = giveSkip g s := by
  have work : s.poolWork = some .giveSkip := by simp [State.poolWork, free, give, other]
  simp [giveStep, idle, work, onGive, give]

theorem State.readStore_ran (s : State) (writes : List (Nat × Word)) (a : Address) :
    (s.ran writes).readStore a = (makeWrites writes s).readStore a := rfl

/-- The store after the writes of a give step's run that are still to be made (R70). -/
theorem State.readStore_giveWrites {s : State} (lawful : s.mapsLawful) (b made : Nat) (a : Address) :
    (s.ran ((s.pool.giveWrites b).drop made)).readStore a =
      match s.pool.count, s.pool.tail with
      | 0, _ | _, none => if made = 0 ∧ a = s.relayAddress (offBlock b 0) then 0xFFFF else s.readStore a
      | _, some tail =>
        if made ≤ 1 ∧ a = s.relayAddress (offBlock tail 0) then BitVec.ofNat 16 b
        else if made = 0 ∧ a = s.relayAddress (offBlock b 0) then 0xFFFF else s.readStore a := by
  have wrote : ∀ (t : State) (o : Nat) (v : Word), t.mapsLawful → ∀ a, (t.writeRelay o v).readStore a =
      if a = t.relayAddress o then v else t.readStore a := fun t o v l a => by
    obtain ⟨here, elsewhere⟩ := State.wroteWord_writeRelay l o v
    split
    · next h => rw [h, here]
    · next h => exact elsewhere a h
  have first := wrote s (offBlock b 0) 0xFFFF lawful a
  have alone : (s.ran ([(offBlock b 0, 0xFFFF)].drop made)).readStore a =
      if made = 0 ∧ a = s.relayAddress (offBlock b 0) then 0xFFFF else s.readStore a := by
    cases made with
    | zero => simpa [State.readStore_ran] using first
    | succ n => simp; rfl
  have both : ∀ tail, (s.ran ([(offBlock b 0, 0xFFFF), (offBlock tail 0, BitVec.ofNat 16 b)].drop made)).readStore a =
      if made ≤ 1 ∧ a = s.relayAddress (offBlock tail 0) then BitVec.ofNat 16 b
      else if made = 0 ∧ a = s.relayAddress (offBlock b 0) then 0xFFFF else s.readStore a := fun tail => by
    match made with
    | 0 =>
      have second := wrote (s.writeRelay (offBlock b 0) 0xFFFF) (offBlock tail 0) (BitVec.ofNat 16 b)
        (State.mapsLawful_writeRelay s _ _ lawful) a
      rw [first] at second
      refine second.trans ?_
      simp only [Nat.zero_le, true_and]
      rfl
    | 1 => simpa [State.readStore_ran] using wrote s (offBlock tail 0) (BitVec.ofNat 16 b) lawful a
    | n + 2 => simp; rfl
  unfold Pool.giveWrites
  rcases s.pool.count with _ | n <;> rcases s.pool.tail with _ | tail
  · exact alone
  · exact alone
  · exact alone
  · exact both tail

/-! ### The grant of a record -/

theorem State.freeCount_setMessage_le (s : State) (r : RecordIdx) {m : Message} (h : m.state ≠ .free) :
    (s.setMessage r m).freeCount ≤ s.freeCount := by
  have hr : r.val < s.messages.toList.length := by simp
  simp only [State.freeCount, State.setMessage_messages, Vector.toList_set, List.countP_set hr, h, decide_false]
  simp

/-- A state whose message table is another's with one record set. -/
theorem State.message_of_set {s t : State} {r : RecordIdx} {m : Message} (h : t.messages = s.messages.set r m) :
    t.message r = m ∧ ∀ r', r' ≠ r → t.message r' = s.message r' := by
  have same : ∀ q, t.message q = (s.setMessage r m).message q := fun q => by
    rw [State.message, h, State.message, State.setMessage_messages]
  exact ⟨(same r).trans (s.message_setMessage_self r m), fun r' hr => (same r').trans (s.message_setMessage_ne m hr)⟩

/-- The suspension condition reads the pool count, the reserve and the free record count (R76). -/
theorem State.suspendedNow_congr {s t : State} (count : t.pool.count = s.pool.count) (shadow : t.shadow = s.shadow)
    (free : t.freeCount = s.freeCount) : t.suspendedNow = s.suspendedNow := by
  have reserve : t.shadowAt offReserve = s.shadowAt offReserve := by rw [State.shadowAt, shadow, State.shadowAt]
  rw [State.suspendedNow, count, free, reserve, State.suspendedNow]

/-- A suspension condition that does not end is noted and does nothing more (R76). -/
theorem judgeSuspension_notes {s : State} (h : s.pool.suspension = true → s.suspendedNow = true) :
    judgeSuspension s = { s with pool := { s.pool with suspension := s.suspendedNow } } := by
  refine if_neg fun e => ?_
  obtain ⟨suspended, ended⟩ := Bool.and_eq_true_iff.mp e
  rw [h suspended] at ended
  cases ended

/-- The grant of a FREE record (R46): the record, the office mark and the suspension condition. -/
theorem grantRecord_eq {s : State} {r : RecordIdx} {state : RecordState} (origin : Origin)
    (lawful : s.suspensionLawful) (free : (s.message r).state = .free) (used : state ≠ .free) :
    grantRecord r state origin s = { s with
      messages := s.messages.set r ((s.message r).granted state origin), messageDirty := s.messageDirty.set r true
      officeDirty := true
      pool := { s.pool with suspension := (grantRecord r state origin s).suspendedNow } } := by
  obtain ⟨u, hu⟩ : ∃ u, u = s.setMessage r ((s.message r).granted state origin) := ⟨_, rfl⟩
  have state' : ((s.message r).granted state origin).state = state := rfl
  have shown : ((s.message r).granted state origin).shown ≠ (s.message r).shown := fun e => by
    have := congrArg Message.state e
    exact used (by simpa [Message.shown, free, state'] using this)
  have judged : grantRecord r state origin s =
      { u with pool := { u.pool with suspension := u.suspendedNow } } := by
    rw [grantRecord, State.updMessage_eq, ← hu]
    refine judgeSuspension_notes fun suspended => ?_
    have before : s.suspendedNow = true := lawful.symm.trans (by simpa [hu] using suspended)
    have fewer : u.freeCount ≤ s.freeCount := by
      rw [hu]
      exact s.freeCount_setMessage_le r used
    have same : u.shadowAt offReserve = s.shadowAt offReserve ∧ u.pool = s.pool := by
      rw [hu]
      exact ⟨rfl, rfl⟩
    simp only [State.suspendedNow, Bool.or_eq_true, decide_eq_true_eq, same.1, same.2] at before ⊢
    omega
  have judged' : (grantRecord r state origin s).suspendedNow = u.suspendedNow := by
    rw [judged]
    exact State.suspendedNow_congr rfl rfl rfl
  rw [judged', judged, hu, State.eq_iff]
  simp [free, state', used]
  simp [State.setMessage, shown]

/-! ### The trigger of a post -/

theorem precedenceOf_eq_none {n : Nat} : precedenceOf n = none ↔ 3 < n := by
  match n with
  | 0 | 1 | 2 | 3 => simp [precedenceOf]
  | n + 4 => simp [precedenceOf]

theorem codeWordOk_iff (x : Word) :
    codeWordOk x = true ↔ 6 ≤ highByte x ∧ highByte x ≤ 31 ∧ 6 ≤ lowByte x ∧ lowByte x ≤ 31 := by
  simp [codeWordOk, letterByteOk, and_assoc]

/-- The post record's code count and codes pass the check of R59. -/
def State.postCodesOk (s : State) : Prop :=
  1 ≤ lowByte (s.postWord 2) ∧ lowByte (s.postWord 2) ≤ 8 ∧ codeWordOk (s.postWord 3) = true ∧
    ∀ i, i < lowByte (s.postWord 2) → codeWordOk (s.postWord (4 + i)) = true

/-- Its block count and head block pass. -/
def State.postChainOk (s : State) : Prop :=
  1 ≤ (s.postWord 1).toNat ∧ (s.postWord 1).toNat ≤ 3584 ∧ (s.postWord 0).toNat < 3584

theorem State.postCodesOk_iff (s : State) :
    (decide (1 ≤ lowByte (s.postWord 2)) && decide (lowByte (s.postWord 2) ≤ 8) && codeWordOk (s.postWord 3) &&
      s.postCodes.all codeWordOk) = true ↔ s.postCodesOk := by
  simp [State.postCodesOk, State.postCodes, and_assoc]

/-- The codes' check by the letters of the post record's shadow (R59). -/
theorem State.postCodesOk_letters (s : State) :
    let word : Nat → Word := fun w => s.shadowAt (0x20 + w)
    let letters : Word → Prop := fun x => 6 ≤ highByte x ∧ highByte x ≤ 31 ∧ 6 ≤ lowByte x ∧ lowByte x ≤ 31
    s.postCodesOk ↔ 1 ≤ lowByte (word 2) ∧ lowByte (word 2) ≤ 8 ∧ letters (word 3) ∧
      ∀ i, i < lowByte (word 2) → letters (word (4 + i)) := by
  simp only [State.postCodesOk, codeWordOk_iff]
  exact Iff.rfl

theorem State.postChainOk_iff (s : State) :
    (decide (1 ≤ (s.postWord 1).toNat) && decide ((s.postWord 1).toNat ≤ Config.blocks) &&
      decide ((s.postWord 0).toNat < Config.blocks)) = true ↔ s.postChainOk := by
  simp [State.postChainOk, and_assoc, show Config.blocks = 3584 from rfl]

/-- The first of the field checks that fails (R59). -/
theorem State.postFieldRefusal_spec (s : State) :
    (3 < highByte (s.postWord 2) → s.postFieldRefusal = some .badPrecedence) ∧
    (highByte (s.postWord 2) ≤ 3 → ¬ s.postCodesOk → s.postFieldRefusal = some .badCodes) ∧
    (highByte (s.postWord 2) ≤ 3 → s.postCodesOk → ¬ s.postChainOk → s.postFieldRefusal = some .badChain) := by
  have known : highByte (s.postWord 2) ≤ 3 → (precedenceOf (highByte (s.postWord 2))).isNone = false := fun h => by
    cases hp : precedenceOf (highByte (s.postWord 2)) with
    | none => exact absurd (precedenceOf_eq_none.mp hp) (by omega)
    | some p => rfl
  refine ⟨fun h => if_pos (by rw [precedenceOf_eq_none.mpr h]; rfl), fun h codes => ?_, fun h codes chain => ?_⟩
  · refine (if_neg (by rw [known h]; decide)).trans (if_pos ?_)
    rw [Bool.not_eq_true', ← Bool.not_eq_true]
    exact fun e => codes (s.postCodesOk_iff.mp e)
  · refine (if_neg (by rw [known h]; decide)).trans ((if_neg ?_).trans (if_pos ?_))
    · rw [Bool.not_eq_true', s.postCodesOk_iff.mpr codes]
      decide
    · rw [Bool.not_eq_true', ← Bool.not_eq_true]
      exact fun e => chain (s.postChainOk_iff.mp e)

theorem postOrder_busy {s : State} (h : s.walk ≠ none) : postOrder s = refusePost .busy s :=
  if_pos (Option.isSome_iff_ne_none.mpr h)

theorem postOrder_tableFull {s : State} (walk : s.walk = none) (full : s.lowestFree = none) :
    postOrder s = refusePost .tableFull s := by
  simp [postOrder, walk, full]

theorem postOrder_refused {s : State} {outcome : PostOutcome} (walk : s.walk = none) (room : s.lowestFree ≠ none)
    (refusal : s.postFieldRefusal = some outcome) : postOrder s = refusePost outcome s := by
  obtain ⟨r, lowest⟩ := Option.ne_none_iff_exists'.mp room
  simp [postOrder, walk, lowest, refusal]

/-- A refusal changes the last post outcome and reports it. -/
theorem refusePost_eq (s : State) (outcome : PostOutcome) : refusePost outcome s =
    { s with
      postOutcome := outcome, reports := (s.raise .office 0 (.postRefused outcome)).reports
      officeDirty := (s.raise .office 0 (.postRefused outcome)).officeDirty || decide (outcome ≠ s.postOutcome) } := by
  rw [State.eq_iff]
  simp [refusePost, State.setPost_officeDirty_eq, State.raise_reports_eq, State.raise_officeDirty_eq]
  exact Bool.or_right_comm _ _ _

/-! ### The walk -/

theorem walkReadDone_due {s : State} {w : Walk} (due : s.readDue .walkRead) (walk : s.walk = some w) :
    walkReadDone s = walkRead w { s with arbiter := .free } :=
  (onRun_read (effect := fun
    | .walkRead => some (onWalk walkRead)
    | _ => none) due (by simp) rfl rfl rfl).trans (by simp [onWalk, walk])

theorem walkRead_takes {s : State} {w : Walk} (kept : s.owner w.block = .processor) : walkRead w s =
    walkOn { w with
      taken := w.taken + 1, sum := w.sum + blockCountOf (s.readRelay (offBlock w.block 1)) }
      (s.readRelay (offBlock w.block 0)) (s.setOwner w.block (.message w.record)) := if_pos kept

theorem walkRead_notKept {s : State} {w : Walk} (other : s.owner w.block ≠ .processor) :
    walkRead w s = rollBack w .notKept s := if_neg other

theorem walkOn_goes {s : State} {w : Walk} {link : Word} (more : w.taken ≠ w.wanted) (inArea : link.toNat < 3584) :
    walkOn w link s = { s with walk := some { w with block := link.toNat } } :=
  (if_neg more).trans (if_pos inArea)

theorem walkOn_badChain {s : State} {w : Walk} {link : Word} (more : w.taken ≠ w.wanted) (outside : 3584 ≤ link.toNat) :
    walkOn w link s = rollBack w .badChain s :=
  (if_neg more).trans (if_neg (Nat.not_lt.mpr outside))

theorem walkOn_ends {s : State} {w : Walk} {link : Word} (all : w.taken = w.wanted) (fits : w.sum ≤ s.maxLength) :
    walkOn w link s = { s with walk := some { w with ending := true } } :=
  (if_pos all).trans (if_neg (Nat.not_lt.mpr fits))

theorem walkOn_length {s : State} {w : Walk} {link : Word} (all : w.taken = w.wanted) (long : s.maxLength < w.sum) :
    walkOn w link s = rollBack w .length s :=
  (if_pos all).trans (if_pos long)

/-- A refused walk, up to the judgement of the suspension condition (R63). -/
def State.rolledBack (s : State) (w : Walk) (outcome : PostOutcome) : State :=
  (becomeFree w.record ((s.rehome w.record .processor).raise .office (s.tag w.record) (.postRefused outcome))).setPost
    none outcome

theorem rollBack_eq (w : Walk) (outcome : PostOutcome) (s : State) :
    rollBack w outcome s = judgeSuspension (s.rolledBack w outcome) := rfl

/-- What a roll-back changes (R63, R75). -/
theorem State.rolledBack_spec {s : State} {w : Walk} (outcome : PostOutcome) (lawful : s.mapsLawful)
    (posting : (s.message w.record).state = .posting) :
    s.rolledBack w outcome = { s with
      owners := (s.rolledBack w outcome).owners, messages := (s.rolledBack w outcome).messages
      messageDirty := (s.rolledBack w outcome).messageDirty, officeDirty := true, walk := none, postOutcome := outcome
      reports := (s.raise .office (s.tag w.record) (.postRefused outcome)).reports } ∧
    (∀ r : RecordIdx, r ≠ w.record → (s.rolledBack w outcome).message r = s.message r) ∧
    (s.rolledBack w outcome).message w.record =
      Message.free (nextGeneration w.record (s.message w.record).generation) ∧
    ∀ b, (s.rolledBack w outcome).owner b = if s.owner b = .message w.record then .processor else s.owner b := by
  have free : (Message.free (nextGeneration w.record (s.message w.record).generation)).state = .free := rfl
  refine ⟨?_, fun r hr => ?_, ?_, fun b => ?_⟩
  · rw [State.eq_iff]
    simp [State.rolledBack, becomeFree, State.setPost_officeDirty_eq, State.raise_reports_eq, posting, free]
  · simp [State.rolledBack, becomeFree, State.message_setMessage_ne, hr]
  · simp [State.rolledBack, becomeFree]
  · rw [← State.owner_rehome w.record .processor lawful b]
    simp [State.rolledBack, becomeFree, State.owner]

end Sys2Proof.Machine

open Sys2Proof Sys2Proof.Machine

/-- Settles O28: the order's three cases, and the step's run or skip with the build's end after it. -/
theorem giveOrderBuildsItsRange : Obligations.GiveOrderBuildsItsRange := by
  unfold Obligations.GiveOrderBuildsItsRange
  refine ⟨fun count s granted lawful => ?_, fun g s give lawful => ⟨fun made due => ?_, fun free idle other => ?_⟩⟩
  · obtain ⟨w, hw⟩ : ∃ w, w = passWrite (s.relayAddress 0x2E) count s := ⟨_, rfl⟩
    have taken : exec (.giveOrder count) s = .next (Machine.giveOrder count w) :=
      congrArg Host.Outcome.next ((presentAt_order granted (o := 0x2E) (by decide) rfl count).trans (by rw [hw]; rfl))
    have wrote := State.wroteWord_passWrite lawful (s.relayAddress 0x2E) count
    have pool : w.pool = s.pool := by rw [hw]; rfl
    have at' : w.shadowAt 0x2D = s.shadowAt 0x2D := by rw [hw]; rfl
    rw [← hw] at wrote
    refine ⟨_, taken, State.wroteWord_congr wrote ?_, fun g give => ?_, fun give h => ?_, fun give h => ?_⟩
    · exact giveOrder_store count w
    · rw [giveOrder_busy count (show w.pool.give = some g by rw [pool, give]), State.eq_iff, hw]
      simp [State.raise_reports_eq, State.raise_officeDirty_eq]
    · rw [giveOrder_builds (show w.pool.give = none by rw [pool, give]) (by rw [at']; exact h), State.eq_iff, at', hw]
      simp
    · rw [giveOrder_empty (show w.pool.give = none by rw [pool, give]) (by rw [at']; exact h), State.eq_iff, hw]
      simp [State.raise_reports_eq]
  · obtain ⟨v, hv⟩ : ∃ v : State, v = s.ran ((s.pool.giveWrites g.position).drop made) := ⟨_, rfl⟩
    have pool : v.pool = s.pool := by rw [hv, State.ran_eq]
    have lawful' : v.mapsLawful := by
      rw [hv]
      exact State.mapsLawful_makeWrites _ s lawful
    have joined := giveEnd_step (v.setOwner g.position .pool)
      { v.pool.joinBlock g.position with give := some { g with position := g.position + 1, given := g.given + 1 } }
      { g with position := g.position + 1, given := g.given + 1 } rfl g (by rw [← give, ← pool]; rfl) rfl rfl
    obtain ⟨u, hu⟩ : ∃ u, u = giveEnd ((v.setOwner g.position .pool).setPool
      { v.pool.joinBlock g.position with
        give := some { g with position := g.position + 1, given := g.given + 1 } }) := ⟨_, rfl⟩
    have done : exec .giveStep s = .next (poolChanged u) := congrArg Host.Outcome.next
      ((giveStep_joins give due).trans (by rw [hu, hv]; rfl))
    rw [← hu] at joined
    have store : u.store = v.store := by rw [joined]; dsimp only; split <;> simp
    have owners : u.owners = (v.setOwner g.position .pool).owners := by rw [joined]; dsimp only; split <;> simp
    refine ⟨u, done, ?_, ?_, fun b hb => ?_, fun a => ?_⟩
    · have ran := State.ran_eq s ((s.pool.giveWrites g.position).drop made)
      rw [← hv] at ran
      rw [State.eq_iff, joined, ran]
      dsimp only
      by_cases last : g.stop ≤ g.position + 1
      · simp [Pool.joinBlock, last, State.raise_reports_eq, State.raise_officeDirty_eq]
      · simp [Pool.joinBlock, last]
    · rw [State.owner, owners]
      exact State.owner_setOwner_self v _ _ lawful'
    · have kept := State.owner_setOwner_ne v .pool hb
      rw [State.owner, owners]
      exact kept.trans (by rw [hv, State.ran_eq]; rfl)
    · have same : u.readStore a = v.readStore a := by rw [State.readStore, State.readStore, store]
      rw [same, hv]
      exact State.readStore_giveWrites lawful g.position made a
  · refine congrArg Host.Outcome.next ((giveStep_skips give idle free other).trans ?_)
    refine (giveEnd_step s
      { s.pool with give := some { g with position := g.position + 1, skipped := g.skipped + 1 } } { g with position := g.position + 1, skipped := g.skipped + 1 } rfl g give rfl rfl).trans ?_
    rw [State.eq_iff]
    dsimp only
    split <;> simp
/-- Settles O30: the checks in their order, and the grant with its walk. -/
theorem postTriggerIsCheckedAndBeginsTheWalk : Obligations.PostTriggerIsCheckedAndBeginsTheWalk := by
  unfold Obligations.PostTriggerIsCheckedAndBeginsTheWalk
  refine ⟨fun v s granted lawful => ?_, fun v s r p granted lawful law none' lowest good prec => ?_⟩
  all_goals
    obtain ⟨w, hw⟩ : ∃ w, w = passWrite (s.relayAddress 0x2C) v s := ⟨_, rfl⟩
    have taken : exec (.postTrigger v) s = .next (postOrder w) :=
      congrArg Host.Outcome.next ((presentAt_order granted (o := 0x2C) (by decide) rfl v).trans (by rw [hw]; rfl))
    have wrote := State.wroteWord_passWrite lawful (s.relayAddress 0x2C) v
    rw [← hw] at wrote
  · have refused : ∀ outcome, postOrder w = refusePost outcome w → ∃ t, exec (.postTrigger v) s = .next t ∧
        t = { s with
          store := t.store, arbiter := .granted .passage 0, postOutcome := outcome
          reports := (s.raise .office 0 (.postRefused outcome)).reports
          officeDirty := (s.raise .office 0 (.postRefused outcome)).officeDirty ||
            decide (outcome ≠ s.postOutcome) } ∧
        s.wroteWord t (s.relayAddress 0x2C) v := fun outcome h => by
      rw [h, refusePost_eq] at taken
      refine ⟨_, taken, ?_, State.wroteWord_congr wrote rfl⟩
      rw [State.eq_iff, hw]
      simp [State.raise_reports_eq, State.raise_officeDirty_eq]
      exact congrArg _ decide_not
    obtain ⟨precedence, codes, chain⟩ := w.postFieldRefusal_spec
    have walk : w.walk = s.walk := by rw [hw]; rfl
    have table : w.lowestFree = s.lowestFree := by rw [hw]; rfl
    have codesOk : w.postCodesOk ↔ s.postCodesOk := by rw [hw]; exact Iff.rfl
    have chainOk : w.postChainOk ↔ s.postChainOk := by rw [hw]; exact Iff.rfl
    have codesGood := s.postCodesOk_letters
    have word2 : w.postWord 2 = s.shadowAt 0x22 := by rw [hw]; rfl
    exact ⟨fun h => refused _ (postOrder_busy (by rw [walk]; exact h)),
      fun h full => refused _ (postOrder_tableFull (walk.trans h) (table.trans full)),
      fun h room bad => refused _ (postOrder_refused (walk.trans h) (by rw [table]; exact room)
        (precedence (by rw [word2]; exact bad))),
      fun h room good bad => refused _ (postOrder_refused (walk.trans h) (by rw [table]; exact room)
        (codes (by rw [word2]; exact good) fun ok => bad (codesGood.mp (codesOk.mp ok)))),
      fun h room good good' bad => refused _ (postOrder_refused (walk.trans h) (by rw [table]; exact room)
        (chain (by rw [word2]; exact good) (codesOk.mpr (codesGood.mpr good')) fun ok => bad (chainOk.mp ok)))⟩
  · have free : (w.message r).state = .free := by
      rw [hw]
      simpa using List.find?_some lowest
    have granted' := grantRecord_eq (s := w) (r := r) (state := .posting) .posted (by rw [hw]; exact law) free (by simp)
    obtain ⟨g, hg⟩ : ∃ g, g = grantRecord r .posting .posted w := ⟨_, rfl⟩
    rw [← hg] at granted'
    obtain ⟨b, hb⟩ : ∃ b, b = g.suspendedNow := ⟨_, rfl⟩
    rw [← hb] at granted'
    obtain ⟨message, others⟩ := State.message_of_set (congrArg State.messages granted')
    have same : ∀ q, w.message q = s.message q := fun q => by rw [hw]; rfl
    obtain ⟨u, hu⟩ : ∃ u, u = (g.updMessage r fun m => { m with
          precedence := some p, originCode := some (codeOf (s.shadowAt 0x23))
          destinations := (distinctCodes (s.postCodes.map codeOf)).map .code }).setPost
        (some { record := r, head := (s.shadowAt 0x20).toNat, wanted := (s.shadowAt 0x21).toNat
                taken := 0, sum := 0, block := (s.shadowAt 0x20).toNat, ending := false }) .none := ⟨_, rfl⟩
    have order : postOrder w = u := by
      have walk : w.walk.isSome = false := by rw [hw]; simpa using none'
      have lowest' : w.lowestFree = some r := by rw [hw]; exact lowest
      have good' : w.postFieldRefusal = none := by rw [hw]; exact good
      have prec' : precedenceOf (highByte (w.postWord 2)) = some p := by rw [hw]; exact prec
      simp only [postOrder, walk, lowest', good', prec', ← hg, hu]
      rw [hw]
      rfl
    rw [order] at taken
    refine ⟨u, taken, ?_, ?_, ?_, ?_⟩
    · have judged : u.suspendedNow = g.suspendedNow := by
        rw [hu]
        refine State.suspendedNow_congr rfl rfl ?_
        exact State.freeCount_setMessage g r _ rfl
      rw [judged, ← hb, State.eq_iff, hu, granted', hw]
      simp [State.setPost_officeDirty_eq]
    · rw [hu, granted']
      exact State.wroteWord_congr wrote rfl
    · intro r' hr
      rw [hu, State.message_setPost, State.message_updMessage_ne _ _ hr, others r' hr, same]
    · rw [hu, State.message_setPost, State.message_updMessage_self, message, same]
      rfl
/-- Settles O31: the walk's next block or end, its roll-back, and its closing write. -/
theorem walkTakesItsChainOrRollsBack : Obligations.WalkTakesItsChainOrRollsBack := by
  unfold Obligations.WalkTakesItsChainOrRollsBack
  refine ⟨fun w s due walk kept lawful => ?_, fun w s due walk lawful posting => ?_, fun w s due walk lawful => ?_⟩
  · have read := (walkReadDone_due due walk).trans (walkRead_takes (s := { s with arbiter := .free }) kept)
    have took : ∀ next : Walk, walkReadDone s =
        { State.setOwner { s with arbiter := .free } w.block (.message w.record) with walk := some next } →
        ∃ t, exec .walkReadDone s = .next t ∧
          t = { s with arbiter := .free, owners := t.owners, walk := some next } ∧
          t.owner w.block = .message w.record ∧ ∀ b, b ≠ w.block → t.owner b = s.owner b := fun next h =>
      ⟨_, congrArg Host.Outcome.next h, rfl,
        State.owner_setOwner_self { s with arbiter := .free } w.block _ lawful,
        fun b hb => State.owner_setOwner_ne { s with arbiter := .free } _ hb⟩
    exact ⟨fun more inArea => took _ (read.trans (walkOn_goes more inArea)),
      fun all fits => took _ (read.trans (walkOn_ends all fits))⟩
  · have rolled : ∀ outcome (v : State), v.mapsLawful → v = { s with arbiter := .free, owners := v.owners } →
        walkReadDone s = rollBack w outcome v →
        (∀ b, (if v.owner b = .message w.record then .processor else v.owner b) =
          if s.owner b = .message w.record then .processor else s.owner b) →
        ∃ u, exec .walkReadDone s = .next (judgeSuspension u) ∧
         u = { s with
           arbiter := .free
           owners := u.owners, messages := u.messages, messageDirty := u.messageDirty, officeDirty := true
           walk := none, postOutcome := outcome
           reports := (s.raise .office (s.tag w.record) (.postRefused outcome)).reports } ∧
         (∀ r : RecordIdx, r ≠ w.record → u.message r = s.message r) ∧
         u.message w.record =
           Message.free (nextGeneration w.record (s.message w.record).generation) ∧
         ∀ b, u.owner b = if s.owner b = .message w.record then .processor else s.owner b :=
      fun outcome v lawful' form h owners => by
        have same : ∀ r, v.message r = s.message r := fun r => by rw [form]; rfl
        obtain ⟨all, others, record, owner⟩ := State.rolledBack_spec (s := v) (w := w) outcome lawful'
          (by rw [same]; exact posting)
        refine ⟨v.rolledBack w outcome, congrArg Host.Outcome.next h, ?_, fun r hr => (others r hr).trans (same r),
          by rw [record, same], fun b => (owner b).trans (owners b)⟩
        have told : ∀ k, (v.raise .office (v.tag w.record) k).reports = (s.raise .office (s.tag w.record) k).reports :=
          fun k => by
            rw [State.tag, same, State.raise_reports_eq, State.raise_reports_eq, form]
            rfl
        rw [told] at all
        refine all.trans ?_
        rw [State.eq_iff, form]
        simp
    have read := walkReadDone_due due walk
    obtain ⟨v, hv⟩ : ∃ v, v = State.setOwner { s with arbiter := .free } w.block (.message w.record) := ⟨_, rfl⟩
    have lawful' : v.mapsLawful := by
      rw [hv]
      exact State.mapsLawful_setOwner _ _ _ lawful
    have owners : s.owner w.block = .processor → ∀ b,
        (if v.owner b = .message w.record then Owner.processor else v.owner b) =
          if s.owner b = .message w.record then .processor else s.owner b := fun kept b => by
      by_cases hb : b = w.block
      · have mine : v.owner w.block = .message w.record := by
          rw [hv]
          exact State.owner_setOwner_self _ _ _ lawful
        rw [hb, if_pos mine, kept]
        simp
      · have other : v.owner b = s.owner b := by
          rw [hv]
          exact State.owner_setOwner_ne _ _ hb
        rw [other]
    have taken : s.owner w.block = .processor → _ := fun kept =>
      read.trans ((walkRead_takes (s := { s with arbiter := .free }) kept).trans (by rw [← hv]))
    exact ⟨fun other => rolled .notKept { s with arbiter := .free } lawful rfl
        (read.trans (walkRead_notKept (s := { s with arbiter := .free }) other)) fun b => rfl,
      fun kept more outside => rolled .badChain v lawful' (by rw [hv]; rfl)
        ((taken kept).trans (walkOn_badChain more outside)) (owners kept),
      fun kept all long => rolled .length v lawful' (by rw [hv]; rfl)
        ((taken kept).trans (walkOn_length all (by rw [hv]; exact long))) (owners kept)⟩
  · obtain ⟨v, hv⟩ : ∃ v, v = s.ran [(offBlock w.block 0, 0xFFFF)] := ⟨_, rfl⟩
    have form : v = { s with store := v.store, arbiter := .free } := by
      rw [hv]
      exact State.ran_eq _ _
    have done : walkEndWriteDone s = walkEnd w v := by
      have writes : s.runWrites .walkEnd = [(offBlock w.block 0, 0xFFFF)] := by simp [State.runWrites, walk]
      have walk' : v.walk = some w := by rw [form]; exact walk
      rw [walkEndWriteDone, onRun_whole (f := onWalk walkEnd) due (by simp) rfl rfl, writes, ← hv, onWalk, walk']
    obtain ⟨u, hu⟩ : ∃ u, u = (v.updMessage w.record fun m =>
      { m with
        head := some w.head, tail := some w.block, blockCount := w.wanted, textLength := w.sum }).setPost
          none .accepted := ⟨_, rfl⟩
    have same : ∀ r, v.message r = s.message r := fun r => by rw [form]; rfl
    refine ⟨u, congrArg Host.Outcome.next (done.trans (by rw [hu]; rfl)), ?_,
      State.wroteWord_congr (State.wroteWord_ran lawful _ _) (by rw [hu, hv]; rfl), fun r hr => ?_, ?_⟩
    · rw [State.eq_iff, hu, form]
      simp [State.setPost_officeDirty_eq, walk]
    · rw [hu, State.message_setPost, State.message_updMessage_ne _ _ hr, same]
    · rw [hu, State.message_setPost, State.message_updMessage_self, same]
end

section
/-! PROOF. The store path (chapter 9): a processor write by the class of its word, the speed setting's write, and the
consume order. -/

namespace Sys2Proof.Machine

/-! ### The class of each offset (R159) -/

/-- The office area and the post record by their offsets in numbers. -/
theorem officeClass_eq (o : Nat) : officeClass o =
    if o < 16 then .shadowed
    else if o < 32 then .partWritten
    else if o = 44 then .order .post
    else if o = 46 then .order .give
    else if o = 47 then .order .release
    else if o = 48 then .order .cancel
    else if o = 49 then .order .consume
    else if o < 50 then .shadowed
    else .plain := rfl

theorem recordWord_eq {o : Nat} (h : 0x400 ≤ o) : recordWord o = o % 32 := by
  unfold recordWord
  omega

theorem writeClass_office {o : Nat} (h : o < 0x400) : writeClass o = officeClass o := if_pos h

theorem writeClass_circuit {o : Nat} (low : 0x400 ≤ o) (high : o < 0x800) : writeClass o = circuitClass o :=
  (if_neg (by omega)).trans (if_pos high)

theorem writeClass_plain {o : Nat}
    (h : (0x32 ≤ o ∧ o < 0x400) ∨ (0xD48 ≤ o ∧ o < 0x1000) ∨ (0x3000 ≤ o ∧ o < 0x4000)) : writeClass o = .plain := by
  rcases h with ⟨low, high⟩ | ⟨low, high⟩ | ⟨low, high⟩
  · rw [writeClass_office high, officeClass_eq]
    have past : ¬ o < 16 ∧ ¬ o < 32 ∧ o ≠ 44 ∧ o ≠ 46 ∧ o ≠ 47 ∧ o ≠ 48 ∧ o ≠ 49 ∧ ¬ o < 50 := by omega
    simp [past]
  · have past : ¬ o < 1024 ∧ ¬ o < 2048 ∧ ¬ o < 3400 ∧ o < 4096 := by omega
    simp [writeClass, past]
  · have past : ¬ o < 1024 ∧ ¬ o < 2048 ∧ ¬ o < 3400 ∧ ¬ o < 4096 ∧ ¬ o < 12288 ∧ o < 16384 := by omega
    simp [writeClass, past]

theorem writeClass_partWritten {o : Nat}
    (h : (0x10 ≤ o ∧ o < 0x20) ∨ (0x400 ≤ o ∧ o < 0x800 ∧ 16 < o % 32) ∨ (0x1000 ≤ o ∧ o < 0x3000)) :
    writeClass o = .partWritten := by
  rcases h with ⟨low, high⟩ | ⟨low, high, word⟩ | ⟨low, high⟩
  · rw [writeClass_office (by omega), officeClass_eq]
    have past : ¬ o < 16 ∧ o < 32 := by omega
    simp [past]
  · have past : ¬ o % 32 < 16 ∧ o % 32 ≠ 16 := by omega
    rw [writeClass_circuit low high]
    simp [circuitClass, recordWord_eq low, past]
  · have past : ¬ o < 1024 ∧ ¬ o < 2048 ∧ ¬ o < 3400 ∧ ¬ o < 4096 ∧ o < 12288 := by omega
    simp [writeClass, past]

theorem writeClass_block {o : Nat} (h : 0x4000 ≤ o) : writeClass o = .block ((o - 0x4000) / 32) := by
  have past : ¬ o < 1024 ∧ ¬ o < 2048 ∧ ¬ o < 3400 ∧ ¬ o < 4096 ∧ ¬ o < 12288 ∧ ¬ o < 16384 := by omega
  simp [writeClass, past]

theorem writeClass_shadowed {o : Nat}
    (h : o < 0x10 ∨ (0x20 ≤ o ∧ o < 0x2C) ∨ o = 0x2D ∨ (0x400 ≤ o ∧ o < 0x800 ∧ o % 32 < 16) ∨
      (0x800 ≤ o ∧ o < 0xD48)) : writeClass o = .shadowed := by
  rcases h with high | ⟨low, high⟩ | rfl | ⟨low, high, word⟩ | ⟨low, high⟩
  · rw [writeClass_office (by omega), officeClass_eq, if_pos high]
  · rw [writeClass_office (by omega), officeClass_eq]
    have past : ¬ o < 16 ∧ ¬ o < 32 ∧ o ≠ 44 ∧ o ≠ 46 ∧ o ≠ 47 ∧ o ≠ 48 ∧ o ≠ 49 ∧ o < 50 := by omega
    simp [past]
  · rfl
  · rw [writeClass_circuit low high]
    simp [circuitClass, recordWord_eq low, word]
  · have past : ¬ o < 1024 ∧ ¬ o < 2048 ∧ o < 3400 := by omega
    simp [writeClass, past]

/-! ### A processor write at its grant -/

theorem judgeWrite_outside {s : State} {a : Address} (v : Word) (h : s.inRelayArea a = false) :
    judgeWrite a v s = passWrite a v s := by
  simp [judgeWrite, h]

/-- A write in the relay area, by the class of its offset. -/
theorem judgeWrite_inside {s : State} {a : Address} (v : Word) (h : s.inRelayArea a = true) :
    judgeWrite a v s = (match writeClass (relayOffset a) with
      | .plain => passWrite a v s
      | .partWritten => trapWrite (relayOffset a) s
      | .block b => if s.owner b = .processor then passWrite a v s else trapWrite (relayOffset a) s
      | .shadowed => shadowEvent (relayOffset a) ((passWrite a v s).setShadow (relayOffset a) v)
      | .order word => takeOrder word v (passWrite a v s)) := by
  simp only [judgeWrite, h, if_true] <;> rfl

/-- The words whose shadow is no event for another block. -/
theorem shadowEvent_none {o : Nat} (s : State) (reserve : o ≠ 0) (speed : ¬ (0x400 ≤ o ∧ o < 0x800 ∧ o % 32 = 1)) :
    shadowEvent o s = s := by
  have word1 : ¬ (0x400 ≤ o && o < 0x800 && recordWord o = 1) = true := fun e => by
    simp only [Bool.and_eq_true, decide_eq_true_eq] at e
    exact speed ⟨e.1.1, e.1.2, by rw [← recordWord_eq e.1.1]; exact e.2⟩
  exact (if_neg reserve).trans (if_neg word1)

theorem trapWrite_eq (o : Nat) (s : State) : trapWrite o s = { s with
    arbiter := .free
    reports := (s.raise .office 0 (.writeTrap o)).reports
    officeDirty := (s.raise .office 0 (.writeTrap o)).officeDirty } := by
  rw [State.eq_iff]
  simp [trapWrite, State.raise_reports_eq, State.raise_officeDirty_eq]

theorem relayOffset_eq (a : Address) : relayOffset a = a.toNat % 131072 := rfl

theorem exec_processorWrite {s : State} (h : s.granted) (a : Address) (v : Word) :
    exec (.processorWrite a v) s = .next (judgeWrite a v s) := congrArg Host.Outcome.next (presentWrite_granted h a v)

/-! ### The write of word 1 of a circuit's settings -/

/-- A write to a shadowed word, then a change of one circuit with its reports. -/
theorem State.onlyCircuit_written {s w u : State} {c : Circuit} {l : List (Place × Word × ReportKind)} {a : Arbiter}
    (form : w = { s with store := w.store, arbiter := a, shadow := w.shadow }) (h : w.onlyCircuit u c l) :
    u = { s with
      store := u.store, arbiter := a, shadow := u.shadow, circuits := u.circuits, circuitDirty := u.circuitDirty
      reports := (s.raiseAll l).reports, officeDirty := (s.raiseAll l).officeDirty } ∧ s.othersKept u c := by
  obtain ⟨all, kept⟩ := h
  have same : ∀ d, w.circuit d = s.circuit d := fun d => by rw [form]; rfl
  have dirty : w.circuitDirty = s.circuitDirty := by rw [form]
  refine ⟨?_, fun d hd => ⟨(kept d hd).1.trans (same d), (kept d hd).2.trans (by rw [dirty])⟩⟩
  obtain ⟨told, marked⟩ := State.raiseAll_congr l (s := w) (t := s) (by rw [form]) (by rw [form]) (by rw [form])
  rw [told, marked] at all
  rw [State.eq_iff] at all form ⊢
  simp_all

theorem offCircuit_one (c : Circuit) : offCircuit c 1 = 0x400 + 32 * c.val + 1 := rfl

theorem recordCircuit_offCircuit (c : Circuit) (w : Nat) (h : w < 32) : recordCircuit (offCircuit c w) = c := by
  have := c.isLt
  apply Fin.ext
  simp only [recordCircuit, offCircuit, Fin.ofNat]
  omega

theorem exec_speedSettingWrite {s : State} (h : s.granted) (c : Circuit) (v : Word) :
    exec (.speedSettingWrite c v) s = .next (speedSettingWritten c
      ((passWrite (s.relayAddress (0x400 + 32 * c.val + 1)) v s).setShadow (0x400 + 32 * c.val + 1) v)) := by
  have := c.isLt
  refine congrArg Host.Outcome.next ((presentAt_granted h (o := offCircuit c 1) ?_ v).trans ?_)
  · rw [offCircuit_one]
    unfold Config.relayWords
    omega
  · rw [offCircuit_one, writeClass_shadowed (by omega)]
    have word1 : (0x400 ≤ 0x400 + 32 * c.val + 1 && 0x400 + 32 * c.val + 1 < 0x800 &&
        recordWord (0x400 + 32 * c.val + 1) = 1) = true := by
      have ranged : 0x400 ≤ 0x400 + 32 * c.val + 1 ∧ 0x400 + 32 * c.val + 1 < 0x800 := by omega
      have word : recordWord (0x400 + 32 * c.val + 1) = 1 := by
        rw [recordWord_eq ranged.1]
        omega
      simp [ranged, word]
    have here : recordCircuit (0x400 + 32 * c.val + 1) = c := recordCircuit_offCircuit c 1 (by decide)
    refine (if_neg (by unfold offReserve; omega)).trans ((if_pos word1).trans ?_)
    rw [here]

/-- The SETTING_HELD mark cleared, and the comparison at rest by the shadow then standing (R11, R12, R160). -/
theorem speedSettingWritten_spec (c : Circuit) (s : State) :
    let l := (s.circuit c).line
    let rx : Bool := decide (l.receiver = .hunting) && s.inService c
    let tx : Bool := decide (l.transmitter = .idle) && s.inService c
    let held : Bool := (rx || tx) && speedSettingInvalid (s.setting c 1)
    s.onlyCircuit (speedSettingWritten c s) c (if held then [(.circuit c none, 0, .settingHeld)] else []) ∧
    (speedSettingWritten c s).circuit c = { s.circuit c with
      line := { l.copied rx tx (s.setting c 1) with settingHeld := held } } := by
  intro l rx tx held
  obtain ⟨u, hu⟩ : ∃ u, u = s.updLine c fun l => { l with settingHeld := false } := ⟨_, rfl⟩
  have at' : u.circuit c = { s.circuit c with line := { l with settingHeld := false } } := by
    rw [hu]
    simp [l]
  have only : s.onlyCircuit u c [] := by
    rw [hu]
    exact s.onlyCircuit_setCircuit c _
  have serves : u.inService c = s.inService c := by simp [State.inService, at']
  have word : u.setting c 1 = s.setting c 1 := by rw [hu]; simp
  have written : speedSettingWritten c s =
      compareSpeed (decide (l.receiver = .hunting)) (decide (l.transmitter = .idle)) c u := by
    rw [speedSettingWritten, ← hu, compareAtRest, at']
  obtain ⟨told, circuit⟩ := compareSpeed_spec (decide (l.receiver = .hunting)) (decide (l.transmitter = .idle)) c u
  have raises : u.raisesHeld c = (s.inService c && speedSettingInvalid (s.setting c 1)) := by
    simp [State.raisesHeld, serves, word, at']
  rw [raises] at told circuit
  rw [written]
  cases hs : s.inService c with
  | false =>
    have quiet : held = false := by simp [held, rx, tx, hs]
    rw [hs] at told
    rw [quiet]
    refine ⟨State.onlyCircuit_trans only (by simpa using told), circuit.trans ?_⟩
    rw [serves, hs, at']
    simp [rx, tx, hs, LineUnit.copied]
  | true =>
    have same : held = ((decide (l.receiver = .hunting) || decide (l.transmitter = .idle)) &&
        speedSettingInvalid (s.setting c 1)) := by simp [held, rx, tx, hs]
    rw [hs, Bool.true_and, ← same] at told circuit
    refine ⟨State.onlyCircuit_trans only told, circuit.trans ?_⟩
    rw [serves, hs, at', word]
    simp [rx, tx, hs, LineUnit.copied]

/-! ### The consume order -/

theorem consumeReports_within {s : State} {v : Word} (h : s.reports.withinSpan v.toNat = true) :
    consumeReports v s = { s with reports := { s.reports with
      consume := v.toNat, attention := s.reports.attention && decide (v.toNat ≠ s.reports.produce) } } := if_pos h

theorem consumeReports_outside {s : State} {v : Word} (h : s.reports.withinSpan v.toNat = false) :
    consumeReports v s = s := if_neg (by simp [h])

theorem ReportWriter.withinSpan_iff (w : ReportWriter) (n : Nat) : w.withinSpan n = true ↔
    n ≤ 1023 ∧ (n + 1024 - w.consume) % 1024 ≤ (w.produce + 1024 - w.consume) % 1024 := by
  simp [ReportWriter.withinSpan, ReportWriter.unconsumed, show Config.ringEntries = 1024 from rfl]

theorem State.grantee_shut {s : State} (h : s.arbiter.open = false) (cycle : Bool) : s.grantee cycle = none := by
  simp [State.grantee, h]

/-- While another cycle waits that is not granted, one presented changes nothing (log 8). -/
theorem presentCycle_behind {s : State} (h : s.waiting ≠ none) (hg : s.grantee true ≠ some .passage)
    (cycle : PortCycle) : presentCycle cycle s = s := by
  obtain ⟨other, waits⟩ := Option.ne_none_iff_exists'.mp h
  have stays : grantWaiting s = s := by simp [grantWaiting, waits, hg]
  simp [presentCycle, stays, waits]

end Sys2Proof.Machine

open Sys2Proof Sys2Proof.Machine

/-- Settles O43: by the class of the word written. -/
theorem processorWritePassesToStore : Obligations.ProcessorWritePassesToStore := by
  unfold Obligations.ProcessorWritePassesToStore
  refine fun a v s granted lawful => ⟨fun h => ?_, fun inside shadowed => ?_⟩
  · have passes : judgeWrite a v s = passWrite a v s := by
      by_cases inside : s.inRelayArea a = true
      · rw [judgeWrite_inside v inside, relayOffset_eq]
        rcases h with outside | plain | ⟨low, owned⟩
        · exact absurd (of_decide_eq_true inside) outside
        · rw [writeClass_plain plain]
        · rw [writeClass_block low]
          exact if_pos owned
      · exact judgeWrite_outside v (by simpa using inside)
    exact ⟨_, (exec_processorWrite granted a v).trans (congrArg _ passes), rfl,
      State.wroteWord_passWrite lawful a v⟩
  · have lawful' : (passWrite a v s).mapsLawful := State.mapsLawful_writeStore s a v lawful
    have taken : judgeWrite a v s = (passWrite a v s).setShadow (relayOffset a) v := by
      rw [judgeWrite_inside v (decide_eq_true inside), relayOffset_eq, writeClass_shadowed (by omega)]
      exact shadowEvent_none _ (by omega) (by omega)
    exact ⟨_, (exec_processorWrite granted a v).trans (congrArg _ taken), rfl,
      State.wroteWord_congr (State.wroteWord_passWrite lawful a v) rfl,
      State.shadowAt_setShadow_self _ _ v lawful', fun o' ho => State.shadowAt_setShadow_ne _ v ho⟩

/-- Settles O44: the part-written words and the blocks that are not the processor's. -/
theorem suppressedWriteRaisesOneTrap : Obligations.SuppressedWriteRaisesOneTrap := by
  unfold Obligations.SuppressedWriteRaisesOneTrap
  intro a v s granted inside o h
  refine (exec_processorWrite granted a v).trans (congrArg Host.Outcome.next ?_)
  rw [judgeWrite_inside v (decide_eq_true inside), show relayOffset a = o from rfl]
  rcases or_assoc.mpr (or_assoc.mpr h) with part | ⟨low, other⟩
  · rw [writeClass_partWritten (or_assoc.mp part)]
    exact trapWrite_eq o s
  · rw [writeClass_block low]
    exact (if_neg other).trans (trapWrite_eq o s)

/-- Settles O45: the write, and the comparison at rest it leads to. -/
theorem speedSettingWriteIsCompared : Obligations.SpeedSettingWriteIsCompared := by
  unfold Obligations.SpeedSettingWriteIsCompared
  intro c v s granted lawful
  obtain ⟨w, hw⟩ : ∃ w, w = (passWrite (s.relayAddress (0x400 + 32 * c.val + 1)) v s).setShadow
    (0x400 + 32 * c.val + 1) v := ⟨_, rfl⟩
  have form : w = { s with store := w.store, arbiter := .granted .passage 0, shadow := w.shadow } := by
    rw [hw]
    rfl
  have wrote : s.wroteWord w (s.relayAddress (0x400 + 32 * c.val + 1)) v := by
    rw [hw]
    exact State.wroteWord_congr (State.wroteWord_passWrite lawful _ v) rfl
  have shadow : w.shadowAt (0x400 + 32 * c.val + 1) = v := by
    rw [hw]
    exact State.shadowAt_setShadow_self _ _ v (State.mapsLawful_writeStore s _ v lawful)
  have others : ∀ o, o ≠ 0x400 + 32 * c.val + 1 → w.shadowAt o = s.shadowAt o := fun o ho => by
    rw [hw]
    exact State.shadowAt_setShadow_ne _ v ho
  have taken := exec_speedSettingWrite granted c v
  rw [← hw] at taken
  obtain ⟨only, circuit⟩ := speedSettingWritten_spec c w
  have same : w.circuit c = s.circuit c := by rw [form]; rfl
  have serves : w.inService c = s.inService c := by rw [State.inService, same, State.inService]
  have word : w.setting c 1 = v := shadow
  rw [same, serves, word] at circuit only
  refine ⟨_, taken, ?_⟩
  intro l rx tx held told
  have list : (if (decide (l.receiver = .hunting) && s.inService c || decide (l.transmitter = .idle) && s.inService c) &&
        speedSettingInvalid v then [((Place.circuit c none, 0, .settingHeld) : Place × Word × ReportKind)] else []) =
      if held then [(.circuit c none, 0, .settingHeld)] else [] :=
    if_congr (by simp [held, rx, tx]) rfl rfl
  rw [list] at only
  obtain ⟨all, kept⟩ := State.onlyCircuit_written form only
  have standing : (speedSettingWritten c w).shadow = w.shadow ∧ (speedSettingWritten c w).store = w.store := by
    rw [only.1]
    exact ⟨rfl, rfl⟩
  refine ⟨all, State.wroteWord_congr wrote standing.2, ?_, fun o ho => ?_, kept, circuit.trans ?_⟩
  · rw [State.shadowAt, standing.1]
    exact shadow
  · rw [State.shadowAt, standing.1]
    exact others o ho
  · simp [LineUnit.copied, held, rx, tx, l]

/-- Settles O46: a value within the span or not, and the order that must wait. -/
theorem consumeOrderMovesWithinTheSpan : Obligations.ConsumeOrderMovesWithinTheSpan := by
  unfold Obligations.ConsumeOrderMovesWithinTheSpan
  refine ⟨fun v s granted lawful laws => ?_, fun v s shut => ?_⟩
  · obtain ⟨w, hw⟩ : ∃ w, w = passWrite (s.relayAddress 0x31) v s := ⟨_, rfl⟩
    have wrote := State.wroteWord_passWrite lawful (s.relayAddress 0x31) v
    rw [← hw] at wrote
    have reports : w.reports = s.reports := by rw [hw]; rfl
    have taken : exec (.consumeOrder v) s = .next (consumeReports v w) :=
      congrArg Host.Outcome.next ((presentAt_order granted (o := 0x31) (by decide) rfl v).trans (by rw [hw]; rfl))
    have span := s.reports.withinSpan_iff v.toNat
    obtain ⟨⟨produce, consume, -, -, attention⟩, -⟩ := laws
    have whole : s.reports = { s.reports with consume := s.reports.consume, attention := s.reports.attention } := rfl
    cases within : s.reports.withinSpan v.toNat with
    | false =>
      have outside := mt span.mpr (by simp [within])
      rw [consumeReports_outside (by rw [reports]; exact within)] at taken
      refine ⟨w, taken, ?_, wrote, ⟨fun h => absurd h outside, fun _ => by rw [reports], fun _ _ h => absurd (by rw [reports]) h⟩, ?_⟩
      · rw [State.eq_iff, hw]
        simp
      · rw [reports, attention]
    | true =>
      have inside := span.mp within
      rw [consumeReports_within (by rw [reports]; exact within)] at taken
      refine ⟨_, taken, ?_, State.wroteWord_congr wrote rfl, ⟨fun _ => rfl, fun h => absurd inside h, fun waits full moved => ?_⟩, ?_⟩
      · rw [State.eq_iff, hw]
        simp
      · have moved' : v.toNat ≠ s.reports.consume := moved
        have room : (s.reports.produce + 1024 - v.toNat) % 1024 < 1023 := by omega
        rw [reports]
        simp only [ReportWriter.runReady, ReportWriter.unconsumed, show Config.ringEntries = 1024 from rfl]
        simpa [room] using waits
      · have level : s.reports.consume = s.reports.produce → v.toNat = s.reports.produce := fun e => by omega
        rw [reports]
        simp only [attention]
        by_cases high : s.reports.consume = s.reports.produce
        · simp [high, level high]
        · simp [high]
  · have none' : s.grantee true ≠ some .passage := by rw [State.grantee_shut shut]; simp
    exact ⟨fun free => congrArg Host.Outcome.next (presentCycle_waits free none' _),
      fun busy => congrArg Host.Outcome.next (presentCycle_behind busy none' _)⟩
end

section
/-! SUPPORT. The fields of a word (R185): the fields placed one by one and joined are the sum of their values, and the
writes of a run word by word. -/

namespace Sys2Proof.Machine

/-- A word by its fields, each the lowest bit and the value. -/
def fieldsWord (fields : List (Nat × Nat)) : Word := BitVec.ofNat 16 (fields.map fun f => f.2 * 2 ^ f.1).sum

theorem place_eq (lo v : Nat) : place lo v = fieldsWord [(lo, v)] := by
  apply BitVec.eq_of_toNat_eq
  simp [place, fieldsWord, Nat.shiftLeft_eq]

theorem placeBool_eq (lo : Nat) (b : Bool) : placeBool lo b = place lo (if b then 1 else 0) := rfl

@[simp] theorem place_zero (lo : Nat) : place lo 0 = 0 := by
  apply BitVec.eq_of_toNat_eq
  simp [place]

theorem fieldsWord_nil : fieldsWord [] = 0 := rfl

/-- A field above the others joins them. -/
theorem place_or_fieldsWord {lo : Nat} (v : Nat) {fields : List (Nat × Nat)}
    (h : (fields.map fun f => f.2 * 2 ^ f.1).sum < 2 ^ lo) :
    place lo v ||| fieldsWord fields = fieldsWord ((lo, v) :: fields) := by
  rw [place_eq]
  simp only [fieldsWord, List.map_cons, List.map_nil, List.sum_cons, List.sum_nil, Nat.add_zero]
  rw [← BitVec.ofNat_or, ← Nat.shiftLeft_eq, ← Nat.shiftLeft_add_eq_or_of_lt h]

/-- A field above the others, joined after them. -/
theorem fieldsWord_or_place {lo : Nat} (v : Nat) {fields : List (Nat × Nat)}
    (h : (fields.map fun f => f.2 * 2 ^ f.1).sum < 2 ^ lo) :
    fieldsWord fields ||| place lo v = fieldsWord (fields ++ [(lo, v)]) := by
  rw [BitVec.or_comm, place_or_fieldsWord v h]
  simp [fieldsWord, Nat.add_comm]

end Sys2Proof.Machine

end

section
/-! SUPPORT. The words of the mirror writer by their fields (R181, R185). -/

namespace Sys2Proof.Machine

/-- The value of a one-bit field. -/
def bitOf (b : Bool) : Nat := if b then 1 else 0

theorem bitOf_le (b : Bool) : bitOf b ≤ 1 := by cases b <;> decide

theorem placeBool_bit (lo : Nat) (b : Bool) : placeBool lo b = place lo (bitOf b) := rfl

/-- The sum of the fields' values, as a bound on it is checked. -/
def fieldsSum (fields : List (Nat × Nat)) : Nat := (fields.map fun f => f.2 * 2 ^ f.1).sum

@[simp] theorem fieldsSum_nil : fieldsSum [] = 0 := rfl

@[simp] theorem fieldsSum_cons (lo v : Nat) (fields : List (Nat × Nat)) :
    fieldsSum ((lo, v) :: fields) = v * 2 ^ lo + fieldsSum fields := rfl

/-- Fields from the highest down, each above the sum of those below it. -/
def fieldsFit : List (Nat × Nat) → Prop
  | [] => True
  | f :: fields => fieldsSum fields < 2 ^ f.1 ∧ fieldsFit fields

/-- Fields that fit, joined one by one. -/
theorem foldr_place {fields : List (Nat × Nat)} (fit : fieldsFit fields) :
    fields.foldr (fun f w => place f.1 f.2 ||| w) 0 = fieldsWord fields := by
  induction fields with
  | nil => rfl
  | cons f fields ih =>
    obtain ⟨above, rest⟩ := fit
    rw [List.foldr_cons, ih rest, place_or_fieldsWord _ above]

/-- Two fields of a word, the upper above the lower. -/
theorem place_or_place {lo : Nat} (v : Nat) {n : Nat} (h : n < 2 ^ lo) :
    place lo v ||| place 0 n = fieldsWord [(lo, v), (0, n)] := by
  rw [place_eq 0 n, place_or_fieldsWord v (by simpa using h)]

theorem RecordState.code_lt (x : RecordState) : x.code < 2 ^ 3 := by cases x <;> decide

theorem Precedence.code_lt (x : Precedence) : x.code < 2 ^ 2 := by cases x <;> decide

theorem CircuitMode.code_lt (x : CircuitMode) : x.code < 2 ^ 3 := by cases x <;> decide

theorem DialogueState.code_lt (x : DialogueState) : x.code < 2 ^ 4 := by cases x <;> decide

theorem DeliveryState.code_lt (x : DeliveryState) : x.code < 2 ^ 3 := by cases x <;> decide

theorem PostOutcome.code_lt (x : PostOutcome) : x.code < 2 ^ 4 := by cases x <;> decide

theorem HeadingError.code_lt (x : Option HeadingError) : HeadingError.code x < 2 ^ 3 := by
  match x with
  | none | some .badChannel | some .badPrecedence | some .badOrigin | some .noDestination => decide

theorem State.tag_eq (s : State) (r : RecordIdx) : s.tag r = fieldsWord [(7, (s.message r).generation), (0, r.val)] := by
  simp [State.tag, tagOf, fieldsWord]

theorem Message.stateWord_eq (m : Message) : m.stateWord = fieldsWord
    [(8, m.mutilated), (7, bitOf m.hold), (6, bitOf m.precedence.isSome),
      (4, (m.precedence.map Precedence.code).getD 0), (0, m.state.code)] := by
  have hold := bitOf_le m.hold
  have some' := bitOf_le m.precedence.isSome
  have state := m.state.code_lt
  have code : (m.precedence.map Precedence.code).getD 0 < 2 ^ 2 := by
    cases m.precedence with
    | none => decide
    | some p => exact p.code_lt
  rw [← foldr_place (by simp only [fieldsFit, fieldsSum_cons, fieldsSum_nil, and_true]; omega)]
  simp [Message.stateWord, placeBool_bit, BitVec.or_assoc]

theorem Message.flagWord_eq (m : Message) : m.flagWord = fieldsWord
    [(15, bitOf m.receiptMinute.isSome), (8, HeadingError.code m.flags.headingError),
      (7, bitOf m.flags.tooManyCodes), (6, bitOf m.flags.missingEnd), (5, bitOf m.flags.lengthLimit),
      (4, bitOf m.flags.truncated), (3, bitOf m.flags.duplicate), (2, bitOf m.flags.intercept),
      (1, bitOf m.flags.isLocal), (0, bitOf m.flags.posted)] := by
  have error := HeadingError.code_lt m.flags.headingError
  have b7 := bitOf_le m.flags.tooManyCodes
  have b6 := bitOf_le m.flags.missingEnd
  have b5 := bitOf_le m.flags.lengthLimit
  have b4 := bitOf_le m.flags.truncated
  have b3 := bitOf_le m.flags.duplicate
  have b2 := bitOf_le m.flags.intercept
  have b1 := bitOf_le m.flags.isLocal
  have b0 := bitOf_le m.flags.posted
  rw [← foldr_place (by simp only [fieldsFit, fieldsSum_cons, fieldsSum_nil, and_true]; omega)]
  simp [Message.flagWord, placeBool_bit, BitVec.or_assoc]

theorem codeWord_eq (x : Code) : codeWord x = fieldsWord [(8, x.first.toNat), (0, x.second.toNat)] := by
  have := x.second.isLt
  rw [← foldr_place (by simp only [fieldsFit, fieldsSum_cons, fieldsSum_nil, and_true]; omega)]
  simp [codeWord]

theorem slotWord_some (d : Delivery) : slotWord (some d) =
    fieldsWord [(12, d.attempts), (8, d.station.val), (3, d.circuit.val), (0, d.state.code)] := by
  have := d.station.isLt
  have := d.circuit.isLt
  have := d.state.code_lt
  rw [← foldr_place (by simp only [fieldsFit, fieldsSum_cons, fieldsSum_nil, and_true]; omega)]
  simp [slotWord, BitVec.or_assoc]

theorem slotCodes_lt (d : Option Delivery) : slotCodes d < 2 ^ 8 := ((d.map Delivery.codes).getD 0).isLt

theorem Message.originWord_circuit (m : Message) {c : Circuit} {n : StationIdx} (h : m.origin = some (.circuit c (some n))) :
    m.originWord = fieldsWord [(3, c.val), (0, n.val)] := by
  rw [Message.originWord, h]
  exact place_or_place _ n.isLt

theorem Message.originWord_point (m : Message) {c : Circuit} (h : m.origin = some (.circuit c none)) :
    m.originWord = fieldsWord [(3, c.val)] := by
  rw [Message.originWord, h, ← place_eq]
  simp

theorem State.activeWord_eq (n k : Nat) (h : n ≤ 15) (hk : k < 8) : placeBool 15 true ||| place 4 n ||| place 0 k =
    fieldsWord [(15, 1), (4, n), (0, k)] := by
  rw [← foldr_place (by simp only [fieldsFit, fieldsSum_cons, fieldsSum_nil, and_true]; omega)]
  simp [placeBool_bit, bitOf, BitVec.or_assoc]

theorem postWord_eq (b : Bool) (x : PostOutcome) : placeBool 8 b ||| place 0 x.code =
    fieldsWord [(8, bitOf b), (0, x.code)] := by
  have := x.code_lt
  rw [placeBool_bit, place_or_place _ (by omega)]

theorem blockWord_eq (b : Option Nat) : blockWord b = (match b with
    | none => 0xFFFF
    | some n => fieldsWord [(0, n)]) := by
  cases b with
  | none => rfl
  | some n => simp [blockWord, fieldsWord]

theorem shownCount_eq (n : Nat) : shownCount n = fieldsWord [(0, min n 65535)] := by
  simp [shownCount, fieldsWord]

theorem State.channelWords_eq (s : State) (c : Circuit) : s.channelWords c =
    [fieldsWord [(0, if s.isParty c then (s.station c (s.circuit c).dialogue.lastStation).outgoing
        else (s.circuit c).outgoing)],
     fieldsWord [(0, if s.isParty c then (s.station c (s.circuit c).dialogue.lastStation).expected.getD 0
        else (s.circuit c).recogniser.expected.getD 0)]] := by
  simp only [State.channelWords, place_eq 0]
  split <;> rfl

theorem CircuitState.stateWord_eq (x : CircuitState) : x.stateWord = fieldsWord
    [(12, x.dialogue.lastStation.val), (8, x.dialogue.state.code), (4, bitOf x.control.diverting),
      (3, bitOf x.control.holdPending), (0, x.control.state.code)] := by
  have := x.dialogue.state.code_lt
  have := bitOf_le x.control.diverting
  have := bitOf_le x.control.holdPending
  have := x.control.state.code_lt
  rw [← foldr_place (by simp only [fieldsFit, fieldsSum_cons, fieldsSum_nil, and_true]; omega)]
  simp [CircuitState.stateWord, placeBool_bit, BitVec.or_assoc]

theorem faultWord_eq (n : Nat) (f : FaultSet) : place 8 n ||| f.word = fieldsWord
    [(8, n), (3, bitOf f.noLine), (2, bitOf f.framing), (1, bitOf f.sendLoopOpen), (0, bitOf f.openReceive)] := by
  have := bitOf_le f.noLine
  have := bitOf_le f.framing
  have := bitOf_le f.sendLoopOpen
  have := bitOf_le f.openReceive
  rw [← foldr_place (by simp only [fieldsFit, fieldsSum_cons, fieldsSum_nil, and_true]; omega)]
  simp only [FaultSet.word, placeBool_bit, List.foldr_cons, List.foldr_nil, show (0 : Word) = 0#16 from rfl, BitVec.or_zero]
  ac_rfl

/-- The lower bits of a mask lie below the next. -/
theorem fieldsSum_bits_lt (n : Nat) (p : Fin n → Bool) :
    fieldsSum ((List.finRange n).map fun t => (t.val, bitOf (p t))) < 2 ^ n := by
  induction n with
  | zero => simp
  | succ n ih =>
    have bit := bitOf_le (p (Fin.last n))
    have lower := ih fun t => p t.castSucc
    have top : bitOf (p (Fin.last n)) * 2 ^ n ≤ 2 ^ n := by nlinarith
    simp only [fieldsSum, List.finRange_succ_last, List.map_append, List.map_map, List.map_cons, List.map_nil,
      List.sum_append, List.sum_cons, List.sum_nil, Function.comp_def, Fin.val_castSucc, Fin.val_last] at lower ⊢
    rw [Nat.pow_succ]
    omega

/-- The bits of a mask, joined from the lowest up. -/
theorem foldl_placeBool (n : Nat) (p : Fin n → Bool) :
    ((List.finRange n).filter p).foldl (fun w t => w ||| placeBool t.val true) 0 =
      fieldsWord ((List.finRange n).map fun t => (t.val, bitOf (p t))) := by
  induction n with
  | zero => rfl
  | succ n ih =>
    have lower := ih fun t => p t.castSucc
    have below := fieldsSum_bits_lt n fun t => p t.castSucc
    have joined := fieldsWord_or_place (lo := n) (bitOf (p (Fin.last n))) below
    rw [List.finRange_succ_last, List.filter_append, List.foldl_append, List.filter_map, List.foldl_map,
      List.map_append, List.map_map]
    refine Eq.trans ?_ joined
    rw [← lower]
    cases h : p (Fin.last n)
    · simp [h, bitOf, Function.comp_def]
    · simp [h, bitOf, Function.comp_def, placeBool_bit]

end Sys2Proof.Machine

end

section
/-! PROOF. The report writer's and the mirror writer's runs (chapter 10), their words by their fields, and the clearing
of a command word. -/

namespace Sys2Proof.Machine

/-! ### The store after the writes of a run -/

theorem State.readStore_makeWrites_ne (ws : List (Nat × Word)) (s : State) {a : Address}
    (h : ∀ w ∈ ws, a ≠ s.relayAddress w.1) : (makeWrites ws s).readStore a = s.readStore a := by
  induction ws generalizing s with
  | nil => rfl
  | cons w ws ih =>
    obtain ⟨here, there⟩ := List.forall_mem_cons.mp h
    exact (ih (s.writeRelay w.1 w.2) there).trans (s.readStore_writeStore_ne _ here)

theorem State.readStore_makeWrites_mem (ws : List (Nat × Word)) (s : State) (lawful : s.mapsLawful)
    (apart : ws.Pairwise fun w w' => s.relayAddress w.1 ≠ s.relayAddress w'.1) {w : Nat × Word} (hw : w ∈ ws) :
    (makeWrites ws s).readStore (s.relayAddress w.1) = w.2 := by
  induction ws generalizing s with
  | nil => cases hw
  | cons x ws ih =>
    obtain ⟨head, tail⟩ := List.pairwise_cons.mp apart
    rcases List.mem_cons.mp hw with rfl | hw
    · refine (State.readStore_makeWrites_ne ws (s.writeRelay w.1 w.2) fun y hy => head y hy).trans ?_
      exact s.readStore_writeStore_self _ _ lawful
    · exact ih (s.writeRelay x.1 x.2) (State.mapsLawful_writeRelay s _ _ lawful) tail hw

/-- Writes at different offsets of the relay area go to different words. -/
theorem State.relayAddress_apart (s : State) {ws : List (Nat × Word)} (inArea : ∀ w ∈ ws, w.1 < Config.relayWords)
    (apart : ws.Pairwise fun w w' => w.1 ≠ w'.1) :
    ws.Pairwise fun w w' => s.relayAddress w.1 ≠ s.relayAddress w'.1 :=
  apart.imp_of_mem fun hw hw' ne e => ne (s.relayAddress_inj (inArea _ hw) (inArea _ hw') e)

/-- The writes of a run from one of its cycles on, each found in the store. -/
theorem State.readStore_makeWrites_drop {ws : List (Nat × Word)} {s : State} (lawful : s.mapsLawful)
    (inArea : ∀ w ∈ ws, w.1 < Config.relayWords) (apart : ws.Pairwise fun w w' => w.1 ≠ w'.1) {made k : Nat}
    {w : Nat × Word} (hw : ws[k]? = some w) (hk : made ≤ k) :
    (makeWrites (ws.drop made) s).readStore (s.relayAddress w.1) = w.2 := by
  have mem : w ∈ ws.drop made := List.mem_of_getElem? (i := k - made) (by
    rw [List.getElem?_drop, Nat.add_sub_cancel' hk, hw])
  exact State.readStore_makeWrites_mem _ s lawful
    ((s.relayAddress_apart inArea apart).sublist (List.drop_sublist made ws)) mem

/-- A word that none of the writes left goes to. -/
theorem State.readStore_makeWrites_drop_ne {ws : List (Nat × Word)} {s : State} {made : Nat} {a : Address}
    (h : ∀ k w, made ≤ k → ws[k]? = some w → a ≠ s.relayAddress w.1) :
    (makeWrites (ws.drop made) s).readStore a = s.readStore a := by
  refine State.readStore_makeWrites_ne _ s fun w hw => ?_
  obtain ⟨k, hk⟩ := List.mem_iff_getElem?.mp hw
  rw [List.getElem?_drop] at hk
  exact h (made + k) w (by omega) hk

theorem getElem?_wordsFrom (ws : List Word) (o k : Nat) :
    (wordsFrom o ws)[k]? = ws[k]?.map fun v => (o + k, v) := by
  induction ws generalizing o k with
  | nil => rfl
  | cons w ws ih =>
    cases k with
    | zero => rfl
    | succ k =>
      simp only [wordsFrom, List.getElem?_cons_succ, ih]
      rw [Nat.add_right_comm, Nat.add_assoc]

/-- Consecutive words, written from one of the run's cycles on. -/
theorem State.readStore_wordsFrom {s : State} (lawful : s.mapsLawful) {o : Nat} {ws : List Word}
    (inArea : o + ws.length ≤ Config.relayWords) (made : Nat) :
    (∀ w, made ≤ w → w < ws.length →
      (makeWrites ((wordsFrom o ws).drop made) s).readStore (s.relayAddress (o + w)) = ws[w]?.getD 0) ∧
    ∀ a, (∀ w, made ≤ w → w < ws.length → a ≠ s.relayAddress (o + w)) →
      (makeWrites ((wordsFrom o ws).drop made) s).readStore a = s.readStore a := by
  have entry : ∀ k w, (wordsFrom o ws)[k]? = some w → k < ws.length ∧ w.1 = o + k := fun k w h => by
    rw [getElem?_wordsFrom] at h
    obtain ⟨v, hv, rfl⟩ := Option.map_eq_some_iff.mp h
    exact ⟨(List.getElem?_eq_some_iff.mp hv).1, rfl⟩
  have inArea' : ∀ w ∈ wordsFrom o ws, w.1 < Config.relayWords := fun w hw => by
    obtain ⟨k, hk⟩ := List.mem_iff_getElem?.mp hw
    obtain ⟨inside, offset⟩ := entry k w hk
    omega
  have apart : (wordsFrom o ws).Pairwise fun w w' => w.1 ≠ w'.1 := List.pairwise_iff_getElem.mpr fun i j hi hj less e => by
    have first := (entry i _ (List.getElem?_eq_getElem hi)).2
    have second := (entry j _ (List.getElem?_eq_getElem hj)).2
    omega
  refine ⟨fun w hw hl => ?_, fun a ha => State.readStore_makeWrites_drop_ne fun k w hk hw => ?_⟩
  · have at' : (wordsFrom o ws)[w]? = some (o + w, ws[w]?.getD 0) := by
      rw [getElem?_wordsFrom, List.getElem?_eq_getElem hl]
      rfl
    exact State.readStore_makeWrites_drop lawful inArea' apart at' hw
  · obtain ⟨inside, offset⟩ := entry k w hw
    rw [offset]
    exact ha k hk inside

/-! ### The mirror writer's next run -/

theorem State.hasRun_of_grantee {s : State} {cycle : Bool} {q : Requester} (h : s.grantee cycle = some q)
    (own : q ≠ .blockWriter) (pool : q ≠ .poolUnit) : s.hasRun cycle q = true := by
  simp only [State.grantee] at h
  split at h
  · cases h
  split at h
  · exact absurd (Option.some.inj h).symm own
  split at h
  · exact absurd (Option.some.inj h).symm pool
  exact List.find?_some h

theorem State.nextRun_mirror {s : State} (h : s.grantee s.waiting.isSome = some .mirrorWriter) {m : MirrorMember}
    (member : s.mirrorMember = some m) : s.nextRun = some (.mirror m (s.mirrorWords m)) := by
  rw [State.nextRun, h]
  simp [State.runOf, State.mirrorRun, member]

theorem find?_finRange_least {n : Nat} {p : Fin n → Bool} {i : Fin n} (h : p i = true)
    (least : ∀ j, j < i → p j = false) : (List.finRange n).find? p = some i :=
  List.find?_eq_some_iff_getElem.mpr ⟨h, i.val, by simp, by simp, fun j hj => by
    simpa using least ⟨j, by omega⟩ hj⟩

theorem find?_finRange_none {n : Nat} {p : Fin n → Bool} (h : ∀ j, p j = false) : (List.finRange n).find? p = none :=
  List.find?_eq_none.mpr fun j _ => by simp [h j]

/-- An empty dirty set. -/
theorem toList_any_of_clean {n : Nat} {v : Vector Bool n} (h : ∀ i : Fin n, v[i] = false) : v.toList.any id = false := by
  rw [List.any_eq_false]
  intro b hb
  obtain ⟨i, hi, rfl⟩ := List.getElem_of_mem hb
  have inside : i < n := by simpa using hi
  simpa using h ⟨i, inside⟩

theorem makeWrites_store_congr (ws : List (Nat × Word)) {s t : State} (store : t.store = s.store)
    (strap : t.strap = s.strap) : (makeWrites ws t).store = (makeWrites ws s).store := by
  induction ws generalizing s t with
  | nil => exact store
  | cons w ws ih =>
    exact ih (by simp [State.writeRelay, State.writeStore, State.relayAddress, store, strap]) strap

/-- A run of the mirror writer, granted and made whole (R180). -/
theorem mirrorRun_granted {s : State} {m : MirrorMember} {words : List Word}
    (next : s.nextRun = some (.mirror m words)) :
    mirrorRun s = { s.mirrorLeave m with
      store := (makeWrites (wordsFrom m.offset words) s).store, arbiter := .free } := by
  refine (onRun_granted next rfl).trans ?_
  have standing : (grantRun (.mirror m words) s).store = s.store ∧ (grantRun (.mirror m words) s).strap = s.strap := by
    cases m <;> exact ⟨rfl, rfl⟩
  have written := makeWrites_store_congr (wordsFrom m.offset words) standing.1 standing.2
  rw [id, endRun_eq, endRun_store]
  simp only [State.runWrites, List.drop_zero, written]
  cases m <;> rfl

theorem State.directoryWords_length (s : State) (r : RecordIdx) : (s.directoryWords r).length = 32 := by
  simp [State.directoryWords, allSlots]

theorem State.circuitWords_length (s : State) (c : Circuit) : (s.circuitWords c).length = 15 := by
  have active : (s.activeWords c).length = 2 := by
    unfold State.activeWords
    split <;> rfl
  have channel : (s.channelWords c).length = 2 := by
    simp only [State.channelWords]
    split <;> rfl
  simp [State.circuitWords, active, channel, allPrecedences]

theorem MirrorMember.offset_lt (m : MirrorMember) : m.offset + 32 ≤ Config.relayWords := by
  cases m with
  | record r =>
    have := r.isLt
    simp only [MirrorMember.offset, offRecord, offDirectory, Config.relayWords]
    omega
  | circuit c =>
    have := c.isLt
    simp only [MirrorMember.offset, offCircuit, Config.relayWords]
    omega
  | office => decide

/-- The words of a member's run, whole. -/
theorem mirrorRun_whole {s : State} {m : MirrorMember} {words : List Word} (lawful : s.mapsLawful)
    (next : s.nextRun = some (.mirror m words)) (short : words.length ≤ 32) :
    mirrorRun s = { s.mirrorLeave m with store := (mirrorRun s).store, arbiter := .free } ∧
    (∀ w : Nat, w < words.length → (mirrorRun s).readStore (s.relayAddress (m.offset + w)) = words[w]?.getD 0) ∧
    ∀ a : Address, (∀ w : Nat, w < words.length → a ≠ s.relayAddress (m.offset + w)) →
      (mirrorRun s).readStore a = s.readStore a := by
  have made := mirrorRun_granted next
  have same : (mirrorRun s).store = (makeWrites (wordsFrom m.offset words) s).store := by rw [made]
  have read : ∀ a, (mirrorRun s).readStore a = (makeWrites (wordsFrom m.offset words) s).readStore a := fun a => by
    rw [State.readStore, same]
    rfl
  obtain ⟨written, others⟩ := State.readStore_wordsFrom lawful (o := m.offset) (ws := words)
    (by have := m.offset_lt; omega) 0
  refine ⟨?_, fun w hw => (read _).trans (written w (Nat.zero_le w) hw),
    fun a ha => (read a).trans (others a fun w _ hw => ha w hw)⟩
  rw [same]
  exact made

/-- The five writes of a report run. -/
theorem ReportWriter.runWrites_eq (w : ReportWriter) (r : Report) : w.runWrites r =
    [(0x1000 + 4 * w.produce + 0, r.words[0]?.getD 0), (0x1000 + 4 * w.produce + 1, r.words[1]?.getD 0),
     (0x1000 + 4 * w.produce + 2, r.words[2]?.getD 0), (0x1000 + 4 * w.produce + 3, r.words[3]?.getD 0),
     (0x10, BitVec.ofNat 16 w.nextProduce)] := rfl

/-! ### The words of a report entry (R186) -/

theorem bit_le (b : Bool) : (if b then 1 else 0) ≤ 1 := by cases b <;> decide

/-- The place of a report as fields. -/
def Place.fields : Place → List (Nat × Nat)
  | .office => [(9, 1)]
  | .circuit c none => [(3, c.val)]
  | .circuit c (some n) => [(8, 1), (3, c.val), (0, n.val)]

theorem Place.field_eq (p : Place) : p.field = fieldsWord p.fields := by
  match p with
  | .office => exact place_eq 9 1
  | .circuit c none =>
    rw [Place.field, Place.fields, ← place_eq]
    simp [placeBool_eq]
  | .circuit c (some n) =>
    have := n.isLt
    have := c.isLt
    rw [Place.field, placeBool_eq, BitVec.or_assoc, place_eq 0, Option.getD_some,
      place_or_fieldsWord _ (by simp), place_or_fieldsWord _ (by simp; omega)]
    rfl

theorem Place.fields_lt (p : Place) : (p.fields.map fun f => f.2 * 2 ^ f.1).sum < 2 ^ 10 := by
  match p with
  | .office => decide
  | .circuit c none =>
    have := c.isLt
    simp [Place.fields]
    omega
  | .circuit c (some n) =>
    have := n.isLt
    have := c.isLt
    simp [Place.fields]
    omega

theorem reportHead_eq (r : Report) :
    reportHead r = fieldsWord ([(11, r.kind.code), (10, if r.kind.extension then 1 else 0)] ++ r.place.fields) := by
  have low := r.place.fields_lt
  have bit := bit_le r.kind.extension
  rw [reportHead, placeBool_eq, BitVec.or_assoc, Place.field_eq, place_or_fieldsWord _ low,
    place_or_fieldsWord _ (by simp only [List.map_cons, List.sum_cons]; omega)]
  rfl

theorem StateCause.code_lt (x : StateCause) : x.code < 2 ^ 8 := by cases x <;> decide

theorem FaultMode.code_lt (x : FaultMode) : x.code < 2 ^ 8 := by cases x <;> decide

end Sys2Proof.Machine

open Sys2Proof Sys2Proof.Machine

/-- Settles O48: the grant, the end with the writes not yet made, and the words by their fields. -/
theorem reportRunWritesOneEntry : Obligations.ReportRunWritesOneEntry := by
  unfold Obligations.ReportRunWritesOneEntry
  refine ⟨fun report s => ⟨fun rest next pending => ?_, fun busy run => ?_, fun made busy run laws lawful => ?_⟩,
    fun report channel => ?_⟩
  · have granted : reportWriteStart s = grantRun .report s := if_pos next
    refine congrArg Host.Outcome.next (granted.trans ?_)
    simp [grantRun, ReportWriter.granted, pending]
  · simp [State.cyclesLeft, busy, State.runCycles, State.runWrites, run, ReportWriter.runWrites_eq]
  · obtain ⟨produce, -⟩ := laws
    obtain ⟨v, hv⟩ : ∃ v, v = makeWrites ((s.reports.runWrites report).drop made) s := ⟨_, rfl⟩
    have form : v = { s with store := v.store } := by
      rw [hv]
      exact makeWrites_eq _ s
    have done : reportWriteDone s = { v with arbiter := .free, reports := s.reports.written } := by
      have writes : s.runWrites .report = s.reports.runWrites report := by simp [State.runWrites, run]
      simp only [reportWriteDone, busy, endRun, writes, ← hv]
      rw [form]
    have entries : ∀ j : Fin 4, (s.reports.runWrites report)[j.val]? =
        some (0x1000 + 4 * s.reports.produce + j.val, report.words[j.val]?.getD 0) := fun j => match j with
      | 0 | 1 | 2 | 3 => rfl
    have inArea : ∀ w ∈ s.reports.runWrites report, w.1 < Config.relayWords := by
      rw [ReportWriter.runWrites_eq]
      simp [Config.relayWords]
      omega
    have apart : (s.reports.runWrites report).Pairwise fun w w' => w.1 ≠ w'.1 := by
      rw [ReportWriter.runWrites_eq]
      simp
      omega
    refine ⟨_, congrArg Host.Outcome.next done, ?_, fun j hj => ?_, fun hm => ?_, fun a entry index => ?_⟩
    · rw [State.eq_iff, form]
      simp [ReportWriter.written, ReportWriter.nextProduce, show Config.ringEntries = 1024 from rfl]
    · refine Eq.trans ?_ (State.readStore_makeWrites_drop lawful inArea apart (entries j) hj)
      rw [hv]
      rfl
    · refine Eq.trans ?_ (State.readStore_makeWrites_drop lawful inArea apart
        (w := (0x10, BitVec.ofNat 16 s.reports.nextProduce)) (k := 4) rfl hm)
      rw [hv]
      rfl
    · refine Eq.trans ?_ (State.readStore_makeWrites_drop_ne (made := made) (ws := s.reports.runWrites report)
        fun k w hk hw => ?_)
      · rw [hv]
        rfl
      · by_cases k4 : k < 4
        · have same := (entries ⟨k, k4⟩).symm.trans hw
          rw [← Option.some.inj same]
          exact entry ⟨k, k4⟩ hk
        · obtain ⟨inside, -⟩ := List.getElem?_eq_some_iff.mp hw
          have length : (s.reports.runWrites report).length = 5 := rfl
          obtain rfl : k = 4 := by omega
          rw [← Option.some.inj hw]
          exact index hk
  · obtain ⟨place, tag, kind, minute⟩ := report
    have head := reportHead_eq ⟨place, tag, kind, minute⟩
    have entry : ∀ detail, kind.detail = detail →
        Report.words ⟨place, tag, kind, minute⟩ =
          [fieldsWord ([(11, kind.code), (10, if kind.extension then 1 else 0)] ++ place.fields), tag, detail, minute] :=
      fun detail h => by rw [Report.words, head, h]
    cases kind with
    | messageIn flags => exact entry _ rfl
    | messagePosted => exact entry _ rfl
    | postRefused outcome => exact entry _ (place_eq 0 _)
    | delivered slot n => exact entry _ (place_or_place _ ((channel slot n rfl).trans (by decide)))
    | messageFreed => exact entry _ rfl
    | sequence expected => exact entry _ (place_eq 0 _)
    | circuitState state cause => exact entry _ (place_or_place _ cause.code_lt)
    | lineFault fault mode => exact entry _ (place_or_place _ mode.code_lt)
    | commandRefused reason code => exact entry _ (place_or_place _ code.isLt)
    | writeTrap offset => exact entry _ (place_eq 0 _)
    | station answering => exact entry _ (place_eq 0 _)
    | overdue => exact entry _ rfl
    | preempted => exact entry _ rfl
    | giveDone skipped => exact entry _ (place_eq 0 _)
    | receiveLoss tableFull dropped => exact entry _ (place_eq 0 _)
    | settingHeld => exact entry _ rfl
    | cancelledIn => exact entry _ rfl
    | releaseRefused reason => exact entry _ (place_eq 0 _)
    | divertDone taken intercepted => exact entry _ (place_or_place _ (by omega))
    | codesIntercepted positions => exact entry _ (place_eq 0 _)

/-- Settles O49: the member and its words, the run in progress, the clearing write, and the words by their fields. -/
theorem mirrorAndClearingWritesAreWhole : Obligations.MirrorAndClearingWritesAreWhole := by
  unfold Obligations.MirrorAndClearingWritesAreWhole
  refine ⟨fun s goes lawful => ?_, fun m words made s busy short lawful => ?_, fun c s none' goes owed least lawful => ?_,
    fun s => ⟨fun r mutilated attempts => ?_, fun c retries attempts => ?_, ?_⟩⟩
  · have whole : ∀ m, s.mirrorMember = some m → _ := fun m member =>
      mirrorRun_whole (m := m) lawful (State.nextRun_mirror goes member) (by
        cases m with
        | record r => exact (s.directoryWords_length r).le
        | circuit c => exact (s.circuitWords_length c).le.trans (by decide)
        | office => exact show s.officeWords.length ≤ 32 by simp [State.officeWords])
    refine ⟨_, rfl, fun r dirty least => ?_, fun c clean dirty least => ?_, fun clean clean' => ?_⟩
    · have lowest : s.dirtyRecord = some r := find?_finRange_least dirty least
      exact whole (.record r) (by simp [State.mirrorMember, lowest])
    · have none' : s.dirtyRecord = none := find?_finRange_none clean
      have lowest : s.dirtyCircuit = some c := find?_finRange_least dirty least
      exact whole (.circuit c) (by simp [State.mirrorMember, none', lowest])
    · have none' : s.dirtyRecord = none := find?_finRange_none clean
      have none'' : s.dirtyCircuit = none := find?_finRange_none clean'
      have ready : s.mirrorReady = true := State.hasRun_of_grantee goes (by decide) (by decide)
      have office : s.officeDirty = true := by
        simpa [State.mirrorReady, toList_any_of_clean clean, toList_any_of_clean clean'] using ready
      exact whole .office (by simp [State.mirrorMember, none', none'', office])
  · have done : mirrorRun s = endRun (.mirror m words) made s :=
      onRun_inProgress (f := id) busy (by rw [busy]; rfl) rfl
    refine ⟨_, congrArg Host.Outcome.next done, endRun_eq _ _ s, ?_⟩
    obtain ⟨written, others⟩ := State.readStore_wordsFrom lawful (o := m.offset) (ws := words)
      (by have := m.offset_lt; omega) made
    exact ⟨written, others⟩
  · have lowest : s.nextClear = some c := find?_finRange_least owed least
    have done : commandClearWrite s =
        { passWrite (s.relayAddress (offCommand c)) 0 s with pendingClear := s.pendingClear.set c false } := by
      simp [commandClearWrite, none', lowest, goes]
    exact ⟨_, congrArg Host.Outcome.next done, rfl,
      State.wroteWord_congr (State.wroteWord_passWrite lawful _ 0) rfl⟩
  · have dest : ∀ i : Nat, destWord (s.message r).destinations[i]? = (match (s.message r).destinations[i]? with
        | none => 0
        | some Dest.badCode => 0xFFFF
        | some (Dest.code x) => fieldsWord [(8, x.first.toNat), (0, x.second.toNat)]) := fun i => by
      match (s.message r).destinations[i]? with
      | none => rfl
      | some .badCode => rfl
      | some (.code x) => exact codeWord_eq x
    have slot : ∀ k : SlotIdx, slotWord (s.message r).slots[k] = (match s.delivery r k with
        | none => 0
        | some d => fieldsWord [(12, d.attempts), (8, d.station.val), (3, d.circuit.val), (0, d.state.code)]) := fun k => by
      change slotWord (s.delivery r k) = _
      cases s.delivery r k with
      | none => rfl
      | some d => exact slotWord_some d
    have codes : ∀ k : SlotIdx, slotCodes (s.delivery r k) = (match s.delivery r k with
        | none => 0
        | some d => d.codes.toNat) := fun k => by
      cases s.delivery r k <;> rfl
    have pair : ∀ i j : SlotIdx, place 8 (slotCodes (s.message r).slots[i]) ||| place 0 (slotCodes (s.message r).slots[j]) =
        fieldsWord [(8, match s.delivery r i with
          | none => 0
          | some d => d.codes.toNat), (0, match s.delivery r j with
          | none => 0
          | some d => d.codes.toNat)] := fun i j => by
      rw [← codes, ← codes]
      exact place_or_place _ (slotCodes_lt _)
    refine congrArg₂ (· ++ ·) (congrArg₂ (· ++ ·) (congrArg₂ (· ++ ·) ?_ (List.map_congr_left fun i _ => dest i))
      (List.map_congr_left fun k _ => slot k)) ?_
    · simp only [List.cons.injEq, and_true]
      refine ⟨s.tag_eq r, ?_, Message.flagWord_eq _, ?_, ?_, ?_, place_eq 0 _, ?_, ?_, place_eq 0 _, ?_⟩
      · rw [Message.stateWord_eq]
        cases (s.message r).precedence <;> rfl
      · match h : (s.message r).origin with
        | none => rw [Message.originWord, h]
        | some .posted =>
          rw [Message.originWord, h]
          exact place_eq 15 1
        | some (.circuit c none) => exact Message.originWord_point _ h
        | some (.circuit c (some n)) => exact Message.originWord_circuit _ h
      · cases (s.message r).channel with
        | none => exact place_zero 0
        | some n => exact place_eq 0 n
      · cases (s.message r).originCode with
        | none => rfl
        | some x => exact codeWord_eq x
      · exact blockWord_eq _
      · exact blockWord_eq _
      · exact ⟨trivial, place_or_place _ (s.message r).localSet.isLt⟩
    · rw [show List.finRange 4 = [0, 1, 2, 3] from rfl]
      simp only [List.map_cons, List.map_nil, List.cons.injEq, and_true]
      exact ⟨pair 1 0, pair 3 2, pair 5 4, pair 7 6⟩
  · have active : s.activeWords c = (match (s.circuit c).send.active with
        | none => [0, 0]
        | some (r, k) => [s.tag r, fieldsWord [(15, 1), (4, match s.delivery r k with
          | some d => d.attempts
          | none => 0), (0, k.val)]]) := by
      unfold State.activeWords
      match h : (s.circuit c).send.active with
      | none => rfl
      | some (r, k) =>
        have tried : (s.delivery r k |>.map Delivery.attempts |>.getD 0) = (match s.delivery r k with
            | some d => d.attempts
            | none => 0) := by
          cases s.delivery r k <;> rfl
        have few : (s.delivery r k |>.map Delivery.attempts |>.getD 0) ≤ 15 := by
          cases hd : s.delivery r k with
          | none => exact Nat.zero_le 15
          | some d => exact attempts r k d h hd
        dsimp only
        rw [State.activeWord_eq _ _ few k.isLt, tried]
    rw [State.circuitWords, active, State.channelWords_eq, CircuitState.stateWord_eq, faultWord_eq, place_eq 0,
      State.answeringMask, allSlots, foldl_placeBool]
    simp only [shownCount_eq, allPrecedences, List.map_cons, List.map_nil]
    simp only [List.append_assoc]
    exact congrArg₂ (· ++ ·) rfl (congrArg₂ (· ++ ·) rfl rfl)
  · rw [State.officeWords, postWord_eq]
    simp only [placeBool_bit, place_eq 0]
    rfl
end

section
/-! PROOF. The clock cycle, the M-port's cycle in it, and the arbiter's choice (sections 1.1, 1.2 and 9.6). -/

namespace Sys2Proof.Machine

/-! ### The clocks -/

theorem speedIncrement_lt (code : Fin 6) : speedIncrement code < 2 ^ 24 := by
  revert code
  decide

/-- A carry out of the phase accumulator, as a quotient (R2). -/
theorem accumulate_carry (acc : BitVec 24) (code : Fin 6) (due : Nat) :
    (if (accumulate acc code).2 then due + 1 else due) = due + (acc.toNat + speedIncrement code) / 2 ^ 24 := by
  have := acc.isLt
  have := speedIncrement_lt code
  simp only [accumulate, decide_eq_true_eq]
  split <;> omega

theorem LineUnit.clock_eq (l : LineUnit) : l.clock = { l with
    rxAccumulator := l.rxAccumulator + BitVec.ofNat 24 (speedIncrement l.rxSpeed)
    txAccumulator := l.txAccumulator + BitVec.ofNat 24 (speedIncrement l.txSpeed)
    rxTicksDue := l.rxTicksDue + (l.rxAccumulator.toNat + speedIncrement l.rxSpeed) / 2 ^ 24
    txTicksDue := l.txTicksDue + (l.txAccumulator.toNat + speedIncrement l.txSpeed) / 2 ^ 24 } := by
  rw [← accumulate_carry, ← accumulate_carry]
  rfl

theorem step_idle {s : State} (h : s.pending = []) : step s = .next (portCycle (clockCycle s)) := by
  simp [step, h, idleCycle]

/-! ### The M-port's cycle -/

theorem portCycle_busy {s : State} {run : Run} {made : Nat} (busy : s.arbiter = .granted run made)
    (own : run ≠ .passage) : portCycle s = runCycle run made s := by
  unfold portCycle
  rw [busy]
  cases run <;> first | rfl | exact absurd rfl own

theorem portCycle_open {s : State} (h : s.arbiter.open = true) : portCycle s = makeGrant { s with arbiter := .free } := by
  unfold portCycle
  rcases s.arbiter.open_iff.mp h with free | ⟨made, passage⟩
  · have same : ({ s with arbiter := .free } : State) = s := by rw [← free]
    rw [same, free]
  · rw [passage]

/-- The grant reads of the arbiter only whether it is open. -/
theorem State.grantee_free {s : State} (h : s.arbiter.open = true) (cycle : Bool) :
    State.grantee { s with arbiter := .free } cycle = s.grantee cycle := by
  unfold State.grantee
  rw [h]
  rfl

theorem State.nextRun_free {s : State} (h : s.arbiter.open = true) :
    State.nextRun { s with arbiter := .free } = s.nextRun := by
  unfold State.nextRun
  rw [State.grantee_free h]
  rfl

theorem makeGrant_grants {s : State} {run : Run} (next : s.nextRun = some run) (own : run ≠ .report) :
    makeGrant s = grantRun run s := by
  unfold makeGrant
  rw [next]
  cases run <;> first | rfl | exact absurd rfl own

theorem makeGrant_report {s : State} (next : s.nextRun = some .report) : makeGrant s = s := by
  unfold makeGrant
  rw [next]

theorem makeGrant_waiting {s : State} (next : s.nextRun = none) : makeGrant s = grantWaiting s := by
  unfold makeGrant
  rw [next]

theorem grantRun_free (run : Run) (s : State) : grantRun run { s with arbiter := .free } = grantRun run s := by
  cases run with
  | mirror m words => cases m <;> rfl
  | _ => rfl

/-- A waiting cycle that the grant goes to leaves no run to grant. -/
theorem State.nextRun_passage {s : State} {cycle : PortCycle} (waits : s.waiting = some cycle)
    (h : s.grantee true = some .passage) : s.nextRun = none := by
  simp [State.nextRun, waits, h, State.runOf]

theorem grantWaiting_grants {s : State} {cycle : PortCycle} (waits : s.waiting = some cycle)
    (h : s.grantee true = some .passage) : grantWaiting s = grantCycle cycle { s with waiting := none } := by
  simp [grantWaiting, waits, h]

/-! ### The arbiter's choice -/

theorem State.urgent_iff (s : State) : s.urgent = true ↔
    ∃ c : Circuit, 12 ≤ fifoCharacters (s.circuit c).textFifo ∧
      ∀ v r rest, (s.circuit c).textFifo = .char v r :: rest → r ∉ s.writer.waiting := by
  have heads : ∀ c, s.headWaits c = false ↔
      ∀ v r rest, (s.circuit c).textFifo = .char v r :: rest → r ∉ s.writer.waiting := fun c => by
    unfold State.headWaits
    cases (s.circuit c).textFifo with
    | nil => simp
    | cons item rest => cases item <;> simp
  simp [State.urgent, allCircuits, heads, show Config.urgentCharacters = 12 from rfl]

theorem State.poolRun_take (s : State) : s.poolRun = some .take ↔ s.pool.take ≠ none := by
  cases take : s.pool.take with
  | some r => simp [State.poolRun, State.poolWork, take]
  | none =>
    have other : s.poolWork ≠ some .take := by
      unfold State.poolWork
      rw [take]
      split
      case h_1 h => cases h
      case h_2 => split <;> simp
      case h_3 => split <;> simp
      all_goals simp
    simp only [State.poolRun, ne_eq, not_true_eq_false, iff_false]
    split <;> simp_all

theorem State.grantee_blockWriter {s : State} (h : s.arbiter.open = true) (urgent : s.urgent = true)
    (writes : s.writer.writes ≠ []) (cycle : Bool) : s.grantee cycle = some .blockWriter := by
  simp [State.grantee, h, urgent, State.hasRun, writes]

theorem State.grantee_take {s : State} (h : s.arbiter.open = true) (urgent : s.urgent = true)
    (writes : s.writer.writes = []) (take : s.pool.take ≠ none) (cycle : Bool) : s.grantee cycle = some .poolUnit := by
  simp [State.grantee, h, urgent, State.hasRun, writes, s.poolRun_take.mpr take]

theorem State.grantee_usual {s : State} (h : s.arbiter.open = true)
    (plain : s.urgent = false ∨ (s.writer.writes = [] ∧ s.pool.take = none)) (cycle : Bool) :
    s.grantee cycle = usualOrder.find? (s.hasRun cycle) := by
  rcases plain with calm | ⟨writes, take⟩
  · simp [State.grantee, h, calm]
  · have other : s.poolRun ≠ some .take := fun e => s.poolRun_take.mp e take
    simp [State.grantee, h, State.hasRun, writes, other]

/-- The first of a list without repetition that has a property. -/
theorem find?_split {α : Type} {p : α → Bool} {before rest : List α} {q : α} (apart : (before ++ q :: rest).Nodup) :
    (before ++ q :: rest).find? p = some q ↔ p q = true ∧ ∀ x ∈ before, p x = false := by
  have outside : q ∉ before := fun h => (List.nodup_append.mp apart).2.2 q h q List.mem_cons_self rfl
  constructor
  · intro found
    refine ⟨List.find?_some found, fun x hx => ?_⟩
    by_contra h
    rw [List.find?_append] at found
    cases first : before.find? p with
    | none => exact absurd (List.find?_eq_none.mp first x hx) (by simpa using h)
    | some y =>
      rw [first] at found
      exact outside (Option.some.inj found ▸ List.mem_of_find?_eq_some first)
  · rintro ⟨here, earlier⟩
    exact List.find?_eq_some_iff_append.mpr ⟨here, before, rest, rfl, fun x hx => by simp [earlier x hx]⟩

end Sys2Proof.Machine

open Sys2Proof Sys2Proof.Machine

/-- Settles O2: the clocks, the M-port's cycle, the P-port, the choice and the grant. -/
theorem clockCyclesRunAndGrantTheWaitingWrite : Obligations.ClockCyclesRunAndGrantTheWaitingWrite := by
  unfold Obligations.ClockCyclesRunAndGrantTheWaitingWrite
  refine ⟨fun s idle => ?_, fun a v s none' => ⟨fun waits => ?_, fun goes => ?_⟩, fun cycle s => ?_, fun run s => ?_⟩
  · have stepped := step_idle idle
    obtain ⟨u, hu⟩ : ∃ u, u = clockCycle s := ⟨_, rfl⟩
    rw [← hu] at stepped ⊢
    have arbiter : u.arbiter = s.arbiter := by rw [hu]; rfl
    have waiting : u.waiting = s.waiting := by rw [hu]; rfl
    refine ⟨⟨?_, fun h => ?_, fun h => ?_, fun c => ?_⟩, fun run made busy own => ⟨fun more => ?_, fun last => ?_⟩,
      fun free => ⟨fun run next own => ?_, fun next => ?_, fun next none' => ?_, fun a v waits goes => ?_,
        fun a waits goes => ?_⟩⟩
    · rw [hu]
      rfl
    · have more : s.divider + 1 < 24576 := by omega
      rw [hu]
      exact ⟨if_pos more, if_pos more⟩
    · have wraps : ¬ s.divider + 1 < 24576 := by omega
      rw [hu]
      exact ⟨if_neg wraps, if_neg wraps⟩
    · rw [hu, State.circuit_clockCycle, LineUnit.clock_eq]
    · rw [stepped, portCycle_busy (arbiter.trans busy) own, runCycle, if_pos more, portWrite_eq]
      rfl
    · rw [stepped, portCycle_busy (arbiter.trans busy) own, runCycle, if_neg (by omega)]
    all_goals
      have free' : u.arbiter.open = true := by rw [arbiter]; exact free
      rw [portCycle_open free'] at stepped
    · rw [stepped, makeGrant_grants ((State.nextRun_free free').trans next) own, grantRun_free]
    · rw [stepped, makeGrant_report ((State.nextRun_free free').trans next)]
    · rw [stepped, makeGrant_waiting ((State.nextRun_free free').trans next),
        grantWaiting_of_none (s := { u with arbiter := .free }) (waiting.trans none')]
    all_goals
      have waits' := waiting.trans waits
      have goes' : State.grantee { u with arbiter := .free } true = some .passage := (State.grantee_free free' true).trans goes
      rw [makeGrant_waiting (State.nextRun_passage (s := { u with arbiter := .free }) waits' goes'),
        grantWaiting_grants (s := { u with arbiter := .free }) waits' goes'] at stepped
    · refine stepped.trans (congrArg Host.Outcome.next ?_)
      exact (presentWrite_granted (s := { u with waiting := none, arbiter := .free }) ⟨rfl, goes'⟩ a v).symm
    · refine stepped.trans (congrArg Host.Outcome.next ?_)
      rw [hu]
      rfl
  · exact ⟨congrArg Host.Outcome.next (presentCycle_waits none' waits _), presentCycle_waits none' waits _⟩
  · exact (presentRead_granted ⟨none', goes⟩ a).trans rfl
  · refine ⟨fun shut => by simp [State.grantee, shut], fun free => ⟨fun urgent writes => ?_,
      fun urgent writes take => ?_, fun plain before q rest order => ?_⟩⟩
    · exact State.grantee_blockWriter free (s.urgent_iff.mpr urgent) writes cycle
    · exact State.grantee_take free (s.urgent_iff.mpr urgent) writes take cycle
    · have usual := State.grantee_usual free
        (plain.imp_left fun calm => by rw [← Bool.not_eq_true, s.urgent_iff]; exact calm) cycle
      have apart : (before ++ q :: rest).Nodup := order ▸ (by decide)
      rw [usual, show usualOrder = before ++ q :: rest from order]
      exact find?_split apart
  · refine ⟨fun c f h => ?_, fun report rest h pending => ?_, fun r words h => ?_, fun c words h => ?_, fun words h => ?_,
      fun h => ?_⟩
    · rcases h with rfl | rfl <;> rfl
    · rw [h]
      simp [grantRun, ReportWriter.granted, pending]
    · rw [h]
      rfl
    · rw [h]
      rfl
    · rw [h]
      rfl
    · cases run <;> first | rfl | simp [Run.requester] at h
end

section
/-! PROOF. The circuit commands (chapter 8): the checks in their order, and what each accepted command does. -/

namespace Sys2Proof.Machine

/-! ### The checks of a command (R141) -/

/-- A command word written and marked for clearing, before its command is judged (R163, R164). -/
def State.commanded (s : State) (c : Circuit) (code argument : BitVec 8) : State :=
  { passWrite (s.relayAddress (offCommand c)) (argument ++ code) s with pendingClear := s.pendingClear.set c true }

theorem presentCommand_judged {s : State} (granted : s.granted) (c : Circuit) (code argument : BitVec 8) :
    presentCommand c code argument s = circuitOrder c code argument (s.commanded c code argument) :=
  presentCommand_granted granted c code argument

theorem State.tookCommand_commanded {s : State} (lawful : s.mapsLawful) (c : Circuit) (code argument : BitVec 8) :
    s.tookCommand (s.commanded c code argument) c code argument [] := State.tookCommand_write lawful c code argument

/-- A command word written that leads to a refusal leaves every circuit as it was. -/
theorem presentCommand_reports {s : State} {c : Circuit} {code argument : BitVec 8} {reason : CommandRefusal}
    (granted : s.granted) (lawful : s.mapsLawful)
    (refused : circuitOrder c code argument (s.commanded c code argument) =
      refuseCommand c reason code (s.commanded c code argument)) :
    s.tookCommand (presentCommand c code argument s) c code argument
      [(.circuit c none, 0, .commandRefused reason code)] ∧
    (presentCommand c code argument s).circuits = s.circuits ∧
    (presentCommand c code argument s).circuitDirty = s.circuitDirty := by
  rw [presentCommand_judged granted, refused]
  refine ⟨State.tookCommand_trans (State.tookCommand_commanded lawful c code argument)
    (State.onlyCircuit_raise _ c _ _ _), ?_, ?_⟩
  · simp [refuseCommand, State.commanded]
  · simp [refuseCommand, State.commanded]

theorem presentCommand_refused {s : State} {c : Circuit} {code argument : BitVec 8} {cmd : CircuitCommand}
    {reason : CommandRefusal} (granted : s.granted) (lawful : s.mapsLawful) (code0 : code ≠ 0)
    (known : circuitCommandOf code.toNat = some cmd) (refusal : s.commandRefusal c cmd argument = some reason) :
    s.tookCommand (presentCommand c code argument s) c code argument
      [(.circuit c none, 0, .commandRefused reason code)] ∧
    (presentCommand c code argument s).circuits = s.circuits ∧
    (presentCommand c code argument s).circuitDirty = s.circuitDirty :=
  presentCommand_reports granted lawful
    (circuitOrder_refused (s := s.commanded c code argument) code0 known refusal)

theorem circuitCommandOf_above {n : Nat} (h : 8 ≤ n) : circuitCommandOf n = none := by
  obtain ⟨m, rfl⟩ := Nat.exists_eq_add_of_le h
  rw [Nat.add_comm]
  rfl

theorem circuitOrder_unknown {s : State} {c : Circuit} {code argument : BitVec 8} (h : 8 ≤ code.toNat) :
    circuitOrder c code argument s = refuseCommand c .unknown code s := by
  have code0 : code ≠ 0 := fun e => by
    rw [e] at h
    exact absurd h (by decide)
  rw [circuitOrder, if_neg code0, circuitCommandOf_above h]

/-! ### The first check that fails -/

theorem State.commandRefusal_busy {s : State} {c : Circuit} (cmd : CircuitCommand) (argument : BitVec 8)
    (h : (s.circuit c).control.diverting = true) : s.commandRefusal c cmd argument = some .busy := if_pos h

theorem State.commandRefusal_wrongState {s : State} {c : Circuit} {cmd : CircuitCommand} (argument : BitVec 8)
    (h : (s.circuit c).control.diverting = false) (state : (s.circuit c).control.allows cmd = false) :
    s.commandRefusal c cmd argument = some .wrongState := by
  simp [State.commandRefusal, h, state]

theorem State.commandRefusal_badSettings {s : State} {c : Circuit} (argument : BitVec 8)
    (h : (s.circuit c).control.diverting = false) (closed : (s.circuit c).control.state = .closed)
    (invalid : s.settingsValid c = false) : s.commandRefusal c .openLine argument = some .badSettings := by
  simp [State.commandRefusal, h, Controller.allows, closed, invalid]

theorem State.commandRefusal_badStation {s : State} {c : Circuit} (argument : BitVec 8)
    (h : (s.circuit c).control.diverting = false)
    (state : (s.circuit c).control.state = .ready ∨ (s.circuit c).control.state = .held)
    (invalid : s.resetStation c argument = none) : s.commandRefusal c .stationReset argument = some .badStation := by
  rcases state with state | state <;> simp [State.commandRefusal, h, Controller.allows, state, invalid]

theorem State.settingsValid_eq_false {s : State} {c : Circuit} : s.settingsValid c = false ↔
    kindOf (s.setting c 0) = .unused ∨ speedSettingInvalid (s.setting c 1) = true ∨
    (kindOf (s.setting c 0) = .party ∧ ∀ n : Fin 8, bitSet (s.setting c (6 + n.val)) 15 = false) := by
  cases kind : kindOf (s.setting c 0) <;> cases speed : speedSettingInvalid (s.setting c 1) <;>
    simp [State.settingsValid, allSlots, kind, speed]

theorem State.resetStation_eq_none {s : State} {c : Circuit} {argument : BitVec 8} : s.resetStation c argument = none ↔
    s.isParty c = false ∨ 8 ≤ argument.toNat ∨
      ∃ n : Fin 8, argument.toNat = n.val ∧ (s.station c n).present = false := by
  by_cases h : argument.toNat < 8
  · have only : (∃ n : Fin 8, argument.toNat = n.val ∧ (s.station c n).present = false) ↔
        (s.station c ⟨argument.toNat, h⟩).present = false := by
      constructor
      · rintro ⟨n, e, absent⟩
        rwa [show (⟨argument.toNat, h⟩ : Fin 8) = n from Fin.ext e]
      · exact fun absent => ⟨_, rfl, absent⟩
    have low : ¬ 8 ≤ argument.toNat := by omega
    rw [only]
    simp only [State.resetStation, dif_pos h, low, false_or]
    cases s.isParty c <;> simp
  · have high : 8 ≤ argument.toNat := by omega
    simp [State.resetStation, h, high]

/-! ### A command that passes its checks -/

theorem State.commandRefusal_passes {s : State} {c : Circuit} {cmd : CircuitCommand} {argument : BitVec 8}
    (idle : (s.circuit c).control.diverting = false) (allowed : (s.circuit c).control.allows cmd = true)
    (settings : cmd = .openLine → s.settingsValid c = true)
    (station : cmd = .stationReset → (s.resetStation c argument).isSome = true) :
    s.commandRefusal c cmd argument = none := by
  simp only [State.commandRefusal, idle, allowed]
  cases cmd with
  | openLine => simp [settings rfl]
  | stationReset =>
    have present := station rfl
    cases h : s.resetStation c argument <;> simp [h] at present ⊢
  | _ => simp

theorem presentCommand_acts {s : State} {c : Circuit} {code argument : BitVec 8} {cmd : CircuitCommand}
    (granted : s.granted) (code0 : code ≠ 0) (known : circuitCommandOf code.toNat = some cmd)
    (passes : s.commandRefusal c cmd argument = none) :
    presentCommand c code argument s = actOn c cmd argument (s.commanded c code argument) := by
  rw [presentCommand_judged granted]
  exact circuitOrder_accepted (s := s.commanded c code argument) code0 known passes

/-- A command whose effect is a change of its own circuit and reports, and then what g does with the state. -/
theorem exec_actsThen {s : State} {c : Circuit} {code argument : BitVec 8} {cmd : CircuitCommand} {i : Instr}
    {f g : State → State} {x : CircuitState} {l : List (Place × Word × ReportKind)} (granted : s.granted)
    (lawful : s.mapsLawful) (runs : exec i s = .next (presentCommand c code argument s)) (code0 : code ≠ 0)
    (known : circuitCommandOf code.toNat = some cmd) (passes : s.commandRefusal c cmd argument = none)
    (acts : actOn c cmd argument (s.commanded c code argument) = g (f (s.commanded c code argument)))
    (only : ∀ u : State, u.circuits = s.circuits → u.shadow = s.shadow → u.onlyCircuit (f u) c l)
    (at' : ∀ u : State, u.circuits = s.circuits → u.shadow = s.shadow → (f u).circuit c = x) :
    exec i s = .next (g (f (s.commanded c code argument))) ∧
    s.tookCommand (f (s.commanded c code argument)) c code argument l ∧
    (f (s.commanded c code argument)).circuit c = x :=
  ⟨runs.trans (congrArg _ ((presentCommand_acts granted code0 known passes).trans acts)),
    State.tookCommand_trans (State.tookCommand_commanded lawful c code argument) (only _ rfl rfl), at' _ rfl rfl⟩

theorem exec_acts {s : State} {c : Circuit} {code argument : BitVec 8} {cmd : CircuitCommand} {i : Instr} {f : State → State}
    {x : CircuitState} {l : List (Place × Word × ReportKind)} (granted : s.granted) (lawful : s.mapsLawful)
    (runs : exec i s = .next (presentCommand c code argument s)) (code0 : code ≠ 0)
    (known : circuitCommandOf code.toNat = some cmd) (passes : s.commandRefusal c cmd argument = none)
    (acts : actOn c cmd argument (s.commanded c code argument) = f (s.commanded c code argument))
    (only : ∀ u : State, u.circuits = s.circuits → u.shadow = s.shadow → u.onlyCircuit (f u) c l)
    (at' : ∀ u : State, u.circuits = s.circuits → u.shadow = s.shadow → (f u).circuit c = x) :
    exec i s = .next (f (s.commanded c code argument)) ∧
    s.tookCommand (f (s.commanded c code argument)) c code argument l ∧
    (f (s.commanded c code argument)).circuit c = x :=
  exec_actsThen (g := id) granted lawful runs code0 known passes acts only at'

theorem State.circuit_congr {s u : State} (h : u.circuits = s.circuits) (c : Circuit) : u.circuit c = s.circuit c := by
  rw [State.circuit, h, State.circuit]

theorem State.setting_congr {s u : State} (h : u.shadow = s.shadow) (c : Circuit) (w : Nat) :
    u.setting c w = s.setting c w := by
  rw [State.setting, State.shadowAt, h, State.setting, State.shadowAt]

theorem State.isParty_congr {s u : State} (h : u.circuits = s.circuits) (c : Circuit) : u.isParty c = s.isParty c := by
  rw [State.isParty, State.circuit_congr h, State.isParty]

/-- A circuit that is not READY, or may not start for another reason, is judged to do nothing (R81, R100, R123). -/
theorem judge_stays {s : State} {c : Circuit} (h : s.mayStart c = false) : judge c s = s := by
  cases party : s.isParty c with
  | true => rw [judge_party party, judgeParty_busy (by simp [h])]
  | false => rw [judge_point party, judgePoint_idle (.inl h)]

/-! ### OPEN -/

theorem speedSetting_valid {w : Word} (h : speedSettingInvalid w = false) (n : Fin 6) (k : Fin 3) :
    (speedOf w).getD n = (speedOf w).getD 0 ∧ (stopOf w).getD k = (stopOf w).getD 0 := by
  simp only [speedSettingInvalid, Bool.or_eq_false_iff] at h
  cases hs : speedOf w <;> cases ht : stopOf w <;> simp [hs, ht] at h ⊢

theorem openCircuit_spec (c : Circuit) (s : State) :
    s.onlyCircuit (openCircuit c s) c [(.circuit c none, 0, .circuitState .checking .openCommand)] ∧
    (openCircuit c s).circuit c =
      (let x := (s.circuit c).opened (s.setting c) (s.effectiveFrom c)
       { x with
         line := x.line.rearm
         control := { x.control with state := .checking, markRun := 0, checkCount := 0, noLineReported := false } }) := by
  have enters (u : State) := setMode_spec c .checking .openCommand u (.inr (by decide))
  refine ⟨State.onlyCircuit_trans (l := [])
    (State.onlyCircuit_trans (s.onlyCircuit_setCircuit c _) (beginCheck_spec c _).1) (enters _).1, ?_⟩
  rw [openCircuit, (enters _).2, (beginCheck_spec c _).2]
  simp

/-! ### DIVERT and STATION_RESET -/

theorem Queues.isEmpty_iff {s : State} {c : Circuit} :
    (s.circuit c).queues.isEmpty = true ↔ ∀ p, (s.queue c p).entries = [] := by
  simp only [Queues.isEmpty, allPrecedences, List.all_cons, List.all_nil, Bool.and_true, Bool.and_eq_true, List.isEmpty_iff,
    State.queue]
  exact ⟨fun ⟨t, u, r, s'⟩ p => by cases p <;> assumption, fun h => ⟨h .t, h .u, h .r, h .s⟩⟩

/-- The mark set with both counts 0 (R90). -/
def State.marked (s : State) (c : Circuit) : State :=
  (s.updControl c fun k => { k with diverting := true }).updCircuit c fun x => { x with divert := ⟨0, 0⟩ }

theorem State.marked_spec (s : State) (c : Circuit) : s.onlyCircuit (s.marked c) c [] ∧
    (s.marked c).circuit c = { s.circuit c with
      divert := { taken := 0, intercepted := 0 }, control := { (s.circuit c).control with diverting := true } } :=
  ⟨State.onlyCircuit_trans (l := []) (s.onlyCircuit_setCircuit c _) (State.onlyCircuit_setCircuit _ c _),
    by simp [State.marked]⟩

/-- An accepted DIVERT on empty queues, the circuit out of service: the divert ends, and the scheduler starts nothing (R94). -/
theorem divertCircuit_empty {s : State} {c : Circuit} (empty : ∀ p, (s.queue c p).entries = [])
    (notReady : (s.circuit c).control.state ≠ .ready) :
    divertCircuit c s = ((s.marked c).updControl c fun k => { k with diverting := false }).raise (.circuit c none) 0
      (.divertDone 0 0) := by
  have at' := (s.marked_spec c).2
  have ends : ((s.marked c).isDiverting c && ((s.marked c).circuit c).queues.isEmpty) = true := by
    rw [State.isDiverting, at']
    exact Queues.isEmpty_iff.mpr empty
  have counts : ((s.marked c).circuit c).divert = ⟨0, 0⟩ := by rw [at']
  show divertEnd c (s.marked c) = _
  rw [divertEnd, if_pos ends, counts]
  exact judge_stays (by simp [State.mayStart, at', notReady])

theorem divertCircuit_queued {s : State} {c : Circuit} (h : ¬ ∀ p, (s.queue c p).entries = []) :
    divertCircuit c s = s.marked c := by
  have waits : (((s.marked c).circuit c).queues.isEmpty) = false := by
    rw [(s.marked_spec c).2, ← Bool.not_eq_true]
    exact fun e => h (Queues.isEmpty_iff.mp e)
  show divertEnd c (s.marked c) = _
  rw [divertEnd, waits, Bool.and_false]
  exact if_neg Bool.false_ne_true

theorem State.resetStation_ofNat {s : State} {c : Circuit} {n : StationIdx} (party : s.isParty c = true)
    (present : (s.station c n).present = true) : s.resetStation c (BitVec.ofNat 8 n.val) = some n := by
  have e : (BitVec.ofNat 8 n.val).toNat = n.val := by
    rw [BitVec.toNat_ofNat]
    omega
  have low : (BitVec.ofNat 8 n.val).toNat < 8 := by omega
  have same : (⟨(BitVec.ofNat 8 n.val).toNat, low⟩ : Fin 8) = n := Fin.ext e
  rw [State.resetStation, dif_pos low, same, party, present]
  rfl

/-- The station set to ANSWERING with no failures (R129). -/
def State.answering (s : State) (c : Circuit) (n : StationIdx) : State :=
  s.updStation c n fun x => { x with failures := 0, answering := true }

theorem State.answering_spec (s : State) (c : Circuit) (n : StationIdx) : s.onlyCircuit (s.answering c n) c [] ∧
    (s.answering c n).circuit c = { s.circuit c with
      stations := (s.circuit c).stations.set n { (s.circuit c).stations[n] with failures := 0, answering := true } } :=
  ⟨s.onlyCircuit_setCircuit c _, by simp [State.answering]⟩

theorem actOn_stationReset {s : State} {c : Circuit} {argument : BitVec 8} {n : StationIdx}
    (named : s.resetStation c argument = some n) :
    actOn c .stationReset argument s = resetStationOf c n s := by
  simp only [actOn, named]

theorem resetStationOf_answering {s : State} {c : Circuit} {n : StationIdx} (h : (s.station c n).answering = true) :
    resetStationOf c n s = s.answering c n := by
  simp [resetStationOf, stationAnswers, h, State.answering]

theorem resetStationOf_silent {s : State} {c : Circuit} {n : StationIdx} (party : s.isParty c = true)
    (h : (s.station c n).answering = false) :
    resetStationOf c n s = judge c ((s.answering c n).raise (.circuit c (some n)) 0 (.station true)) := by
  have party' : ((s.answering c n).raise (.circuit c (some n)) 0 (.station true)).isParty c = true := by
    rw [State.isParty, State.circuit_raise, (s.answering_spec c n).2]
    exact party
  rw [judge_party party']
  simp [resetStationOf, stationAnswers, h, State.answering]

/-! ### The passed check (R144) -/

/-- The circuit as the passed check clears it, before it is READY. -/
def State.checked (s : State) (c : Circuit) : State :=
  (s.updControl c fun k => { k with faults := .empty, retryCount := 0, holdPending := false }).updRecogniser c
    Recogniser.toHunt

theorem State.checked_spec (s : State) (c : Circuit) : s.onlyCircuit (s.checked c) c [] ∧
    (s.checked c).circuit c = { s.circuit c with
      recogniser := (s.circuit c).recogniser.toHunt
      control := { (s.circuit c).control with faults := .empty, retryCount := 0, holdPending := false } } :=
  ⟨State.onlyCircuit_trans (l := []) (s.onlyCircuit_setCircuit c _) (State.onlyCircuit_setCircuit _ c _),
    by simp [State.checked]⟩

theorem loadPollTimer_spec (c : Circuit) (s : State) : s.onlyCircuit (loadPollTimer c s) c [] ∧
    (loadPollTimer c s).circuit c = { s.circuit c with
      dialogue := if s.isParty c then { (s.circuit c).dialogue with
          pollTimer := some (10 * (s.circuit c).control.effective.pollInterval), pollExpired := false }
        else (s.circuit c).dialogue } := by
  cases party : s.isParty c with
  | true =>
    rw [loadPollTimer, if_pos party]
    exact ⟨s.onlyCircuit_setCircuit c _, by simp⟩
  | false =>
    rw [loadPollTimer, if_neg (by simp [party])]
    exact ⟨s.onlyCircuit_refl c, rfl⟩

end Sys2Proof.Machine

open Sys2Proof Sys2Proof.Machine

/-- Settles O50: the checks one after another. -/
theorem circuitCommandIsCheckedInOrder : Obligations.CircuitCommandIsCheckedInOrder := by
  unfold Obligations.CircuitCommandIsCheckedInOrder
  intro c argument s granted lawful k refused known
  have listed : ∀ e ∈ known, ∃ cmd, exec e.1 s = .next (presentCommand c e.2.1 argument s) ∧ e.2.1 ≠ 0 ∧
      circuitCommandOf e.2.1.toNat = some cmd ∧ (k.state ∉ e.2.2 → k.allows cmd = false) := by
    intro e he
    simp only [known, List.mem_cons, List.not_mem_nil, or_false] at he
    rcases he with rfl | rfl | rfl | rfl | rfl | rfl | rfl
    · exact ⟨.openLine, rfl, show (1 : BitVec 8) ≠ 0 by decide, rfl, fun h => by simp at h; simp [Controller.allows, h]⟩
    · exact ⟨.close, rfl, show (2 : BitVec 8) ≠ 0 by decide, rfl, fun h => by
        cases state : k.state <;> simp [state] at h
        simp [Controller.allows, state]⟩
    · exact ⟨.hold, rfl, show (3 : BitVec 8) ≠ 0 by decide, rfl, fun h => by simp at h; simp [Controller.allows, h]⟩
    · exact ⟨.resume, rfl, show (4 : BitVec 8) ≠ 0 by decide, rfl, fun h => by simp at h; simp [Controller.allows, h]⟩
    · exact ⟨.clearFault, rfl, show (5 : BitVec 8) ≠ 0 by decide, rfl, fun h => by simp at h; simp [Controller.allows, h]⟩
    · exact ⟨.divert, rfl, show (6 : BitVec 8) ≠ 0 by decide, rfl, fun h => by simp at h; simp [Controller.allows, h]⟩
    · exact ⟨.stationReset, rfl, show (7 : BitVec 8) ≠ 0 by decide, rfl, fun h => by simp at h; simp [Controller.allows, h]⟩
  have refuse : ∀ i code cmd reason, exec i s = .next (presentCommand c code argument s) → code ≠ 0 →
      circuitCommandOf code.toNat = some cmd → s.commandRefusal c cmd argument = some reason →
      refused i code reason := fun i code cmd reason runs code0 of refusal =>
    ⟨_, runs, presentCommand_refused granted lawful code0 of refusal⟩
  refine ⟨⟨_, rfl, ?_⟩, fun code above => ⟨_, rfl, presentCommand_reports granted lawful
    (circuitOrder_unknown above)⟩, fun e he busy => ?_, fun e he idle state => ?_, fun idle ready => ⟨fun pending => ?_,
      fun pending => ?_⟩, fun idle closed bad => ?_, fun idle state bad => ?_⟩
  · rw [presentCommand_judged granted]
    exact ⟨State.tookCommand_commanded lawful c 0 argument, rfl, rfl⟩
  · obtain ⟨cmd, runs, code0, of, -⟩ := listed e he
    exact refuse _ _ _ _ runs code0 of (State.commandRefusal_busy _ _ busy)
  · obtain ⟨cmd, runs, code0, of, state'⟩ := listed e he
    exact refuse _ _ _ _ runs code0 of (State.commandRefusal_wrongState _ idle (state' state))
  · exact refuse _ 3 .hold _ rfl (by decide) rfl (State.commandRefusal_wrongState _ idle (by
      have pending' : (s.circuit c).control.holdPending = true := pending
      simp [Controller.allows, pending']))
  · exact refuse _ 4 .resume _ rfl (by decide) rfl (State.commandRefusal_wrongState _ idle (by
      have pending' : (s.circuit c).control.holdPending = false := pending
      have ready' : (s.circuit c).control.state = .ready := ready
      simp [Controller.allows, pending', ready']))
  · exact refuse _ 1 .openLine _ rfl (by decide) rfl
      (State.commandRefusal_badSettings _ idle closed (State.settingsValid_eq_false.mpr bad))
  · exact refuse _ 7 .stationReset _ rfl (by decide) rfl
      (State.commandRefusal_badStation _ idle state (State.resetStation_eq_none.mpr bad))

/-- Settles O51: the circuit filled from its settings, its line check begun, and the change of its state. -/
theorem openCopiesTheSettings : Obligations.OpenCopiesTheSettings := by
  unfold Obligations.OpenCopiesTheSettings
  intro c argument s granted lawful closed idle used valid stations
  have passes : s.commandRefusal c .openLine argument = none :=
    State.commandRefusal_passes idle (by simp [Controller.allows, closed]) (fun _ => by
      rw [← Bool.not_eq_false, State.settingsValid_eq_false]
      rintro (unused | invalid | ⟨party, absent⟩)
      · exact used unused
      · rw [valid] at invalid
        cases invalid
      · obtain ⟨n, present⟩ := stations party
        rw [absent n] at present
        cases present) (by simp)
  refine ⟨_, exec_acts (f := openCircuit c) granted lawful rfl (by decide) rfl passes rfl
    (fun u _ _ => (openCircuit_spec c u).1) fun u circuits shadow => (openCircuit_spec c u).2.trans ?_⟩
  have at' : u.setting c = s.setting c := funext (State.setting_congr shadow c)
  have effective : u.effectiveFrom c = s.effectiveFrom c := by simp only [State.effectiveFrom, at']
  rw [State.circuit_congr circuits, effective, at']
  have speeds := speedSetting_valid valid
  simp only [CircuitState.opened, LineUnit.opened, LineUnit.rearm, (speeds (s.circuit c).line.rxSpeed 0).1,
    (speeds (s.circuit c).line.txSpeed (s.circuit c).line.txStop).1, (speeds 0 (s.circuit c).line.txStop).2]
  rfl

/-- Settles O53: HELD at once or pending, and READY again with the scheduler's judgement. -/
theorem holdAndResumeChangeTheState : Obligations.HoldAndResumeChangeTheState := by
  unfold Obligations.HoldAndResumeChangeTheState
  intro c argument s granted lawful idle valid
  have valid' : ∀ u : State, u.shadow = s.shadow → speedSettingInvalid (u.setting c 1) = false := fun u shadow => by
    rw [State.setting_congr shadow, valid]
  have enters (mode : CircuitMode) (cause : StateCause) (u : State) (shadow : u.shadow = s.shadow) :=
    setMode_spec c mode cause u (.inl (valid' u shadow))
  refine ⟨fun ready free none' => ?_, fun ready free busy => ?_, fun held => ?_, fun ready pending => ?_⟩
  · refine ⟨_, exec_acts (cmd := .hold) (f := setMode c .held .hold) granted lawful rfl (by decide) rfl
      (State.commandRefusal_passes idle (by simp [Controller.allows, ready, free]) (by simp) (by simp))
      (if_pos none') (fun u _ shadow => (enters _ _ u shadow).1) fun u circuits shadow => ?_⟩
    rw [(enters _ _ u shadow).2, State.circuit_congr circuits, State.setting_congr shadow]
    simp
  · refine ⟨_, exec_acts (cmd := .hold) (f := fun u => u.updControl c fun k => { k with holdPending := true })
      granted lawful rfl (by decide) rfl
      (State.commandRefusal_passes idle (by simp [Controller.allows, ready, free]) (by simp) (by simp))
      (if_neg busy) (fun u _ _ => u.onlyCircuit_setCircuit c _) fun u circuits shadow => ?_⟩
    rw [← State.circuit_congr circuits]
    simp
  · refine ⟨_, exec_actsThen (cmd := .resume) (g := judge c) (f := setMode c .ready .resume) granted lawful rfl
      (by decide) rfl (State.commandRefusal_passes idle (by simp [Controller.allows, held]) (by simp) (by simp))
      (if_pos held) (fun u _ shadow => (enters _ _ u shadow).1) fun u circuits shadow => ?_⟩
    rw [(enters _ _ u shadow).2, State.circuit_congr circuits, State.setting_congr shadow]
    simp
  · have notHeld : (s.circuit c).control.state ≠ .held := by simp [ready]
    refine ⟨_, exec_actsThen (cmd := .resume) (g := judge c) (f := fun u => u.updControl c fun k =>
        { k with holdPending := false }) granted lawful rfl (by decide) rfl
      (State.commandRefusal_passes idle (by simp [Controller.allows, ready, pending]) (by simp) (by simp))
      (if_neg notHeld) (fun u _ _ => u.onlyCircuit_setCircuit c _) fun u circuits shadow => ?_⟩
    rw [← State.circuit_congr circuits]
    simp

/-- Settles O55: the mark set, and the end of the divert in the same event on empty queues. -/
theorem divertMarksTheCircuit : Obligations.DivertMarksTheCircuit := by
  unfold Obligations.DivertMarksTheCircuit
  intro c argument s granted lawful state idle x empty
  have passes : s.commandRefusal c .divert argument = none :=
    State.commandRefusal_passes idle (by
      simp only [List.mem_cons, List.not_mem_nil, or_false] at state
      rcases state with state | state | state | state <;> simp [Controller.allows, state]) (by simp) (by simp)
  have marks (u : State) (circuits : u.circuits = s.circuits) : (u.marked c).circuit c = { x with
      divert := { taken := 0, intercepted := 0 }, control := { x.control with diverting := true } } := by
    rw [(u.marked_spec c).2, State.circuit_congr circuits]
  have notReady : (s.circuit c).control.state ≠ .ready := fun ready => by simp [ready] at state
  refine ⟨fun none' => ?_, fun some' => ?_⟩
  · refine ⟨_, exec_acts (cmd := .divert) (f := fun u => ((u.marked c).updControl c fun k =>
        { k with diverting := false }).raise (.circuit c none) 0 (.divertDone 0 0)) granted lawful rfl (by decide) rfl
      passes (divertCircuit_empty none' notReady) (fun u _ _ => ?_) fun u circuits _ => ?_⟩
    · exact State.onlyCircuit_trans (State.onlyCircuit_trans (l := []) (l' := []) (u.marked_spec c).1
        (State.onlyCircuit_setCircuit _ c _)) (State.onlyCircuit_raise _ c _ _ _)
    · have clear : x.control = { x.control with diverting := false } := congrArg (fun b : Bool =>
        { x.control with diverting := b }) idle
      rw [clear]
      simp [marks u circuits]
  · exact ⟨_, exec_acts (cmd := .divert) (f := fun u => u.marked c) granted lawful rfl (by decide) rfl passes
      (divertCircuit_queued some') (fun u _ _ => (u.marked_spec c).1) fun u circuits _ => marks u circuits⟩

/-- Settles O56: the station answers, and a change wakes the dialogue. -/
theorem stationResetMakesTheStationAnswer : Obligations.StationResetMakesTheStationAnswer := by
  unfold Obligations.StationResetMakesTheStationAnswer
  intro c n s granted lawful service idle party present x command reset
  have named (u : State) (circuits : u.circuits = s.circuits) : u.resetStation c (BitVec.ofNat 8 n.val) = some n :=
    State.resetStation_ofNat ((State.isParty_congr circuits c).trans party)
      (by rw [State.station, State.circuit_congr circuits]; exact present)
  have passes : s.commandRefusal c .stationReset (BitVec.ofNat 8 n.val) = none :=
    State.commandRefusal_passes idle (by
      simp only [State.inService, Bool.or_eq_true, decide_eq_true_eq] at service
      simpa [Controller.allows] using service) (by simp) (by simp [named s rfl])
  have acts (u : State) (circuits : u.circuits = s.circuits) :
      actOn c .stationReset (BitVec.ofNat 8 n.val) u = resetStationOf c n u := actOn_stationReset (named u circuits)
  have resets (u : State) (circuits : u.circuits = s.circuits) : (u.answering c n).circuit c = reset := by
    rw [(u.answering_spec c n).2, State.circuit_congr circuits]
  refine ⟨fun answers => ?_, fun silent => ?_⟩
  · have done := exec_acts (i := .stationResetCommand c (BitVec.ofNat 8 n.val)) (code := 7)
      (argument := BitVec.ofNat 8 n.val) (cmd := .stationReset) (f := fun u => u.answering c n) (x := reset) (l := [])
      granted lawful rfl (by decide) rfl passes
      ((acts (s.commanded c 7 (BitVec.ofNat 8 n.val)) rfl).trans (resetStationOf_answering answers)) (fun u _ _ => (u.answering_spec c n).1)
      fun u circuits _ => resets u circuits
    exact ⟨_, done⟩
  · have done := exec_actsThen (i := .stationResetCommand c (BitVec.ofNat 8 n.val)) (code := 7)
      (argument := BitVec.ofNat 8 n.val) (cmd := .stationReset) (g := judge c) (x := reset)
      (l := [(.circuit c (some n), 0, .station true)])
      (f := fun u => (u.answering c n).raise (.circuit c (some n)) 0 (.station true)) granted lawful rfl (by decide) rfl
      passes ((acts (s.commanded c 7 (BitVec.ofNat 8 n.val)) rfl).trans (resetStationOf_silent party silent))
      (fun u _ _ => State.onlyCircuit_trans (l := []) (u.answering_spec c n).1 (State.onlyCircuit_raise _ c _ _ _))
      fun u circuits _ => (State.circuit_raise _ _ _ _ _).trans (resets u circuits)
    exact ⟨_, done⟩

/-- Settles O57: the passed check, and the check begun again by the retry timer. -/
theorem lineCheckPassesAndBeginsAgain : Obligations.LineCheckPassesAndBeginsAgain := by
  unfold Obligations.LineCheckPassesAndBeginsAgain
  intro c s x
  refine ⟨fun checking passed valid => ?_, fun waits due => ?_⟩
  · obtain ⟨keeps, at'⟩ := s.checked_spec c
    have valid' : speedSettingInvalid ((s.checked c).setting c 1) = false := by simpa [State.checked] using valid
    obtain ⟨enters, ready⟩ := setMode_spec c .ready .checkPassed (s.checked c) (.inl valid')
    obtain ⟨loads, loaded⟩ := loadPollTimer_spec c (setMode c .ready .checkPassed (s.checked c))
    refine ⟨_, congrArg Host.Outcome.next (if_pos (by simp [x] at checking passed; simp [checking, passed])), State.onlyCircuit_trans (l' := [])
      (State.onlyCircuit_trans (l := []) keeps enters) loads, loaded.trans ?_⟩
    rw [State.isParty, ready, at']
    simp [x, State.checked, Recogniser.toHunt, State.isParty]
  · have begun := beginCheck_spec c (s.updControl c fun k => { k with retryTimer := none })
    have enters := setMode_spec c .checking .retryExpiry (beginCheck c (s.updControl c fun k =>
      { k with retryTimer := none })) (.inr (by decide))
    refine ⟨_, congrArg Host.Outcome.next (if_pos (by simp [x] at waits due; simp [waits, due])), State.onlyCircuit_trans (l := [])
      (State.onlyCircuit_trans (l := []) (s.onlyCircuit_setCircuit c _) begun.1) enters.1, ?_⟩
    rw [enters.2, begun.2]
    simp [x, LineUnit.rearm]
end
section
/-! SUPPORT. A step that changes one circuit and one record and hands over reports, and the ways in which a
transmission ends. -/

namespace Sys2Proof.Machine

/-! ### One circuit, one record and reports -/

/-- The step from s to t changes circuit c and record r only, neither freeing nor granting the record, and hands over the
reports listed. -/
abbrev State.onlyPair (s t : State) (c : Circuit) (r : RecordIdx) (reports : List (Place × Word × ReportKind)) : Prop :=
  t = { s with
    circuits := t.circuits, circuitDirty := t.circuitDirty
    messages := t.messages, messageDirty := t.messageDirty
    reports := (s.raiseAll reports).reports, officeDirty := (s.raiseAll reports).officeDirty } ∧
  s.othersKept t c ∧ ∀ r' : RecordIdx, r' ≠ r → t.message r' = s.message r'

section Pair

variable {s t u : State} {c : Circuit} {r : RecordIdx} {l l' : List (Place × Word × ReportKind)}

theorem State.onlyPair_refl (s : State) (c : Circuit) (r : RecordIdx) : s.onlyPair s c r [] :=
  ⟨rfl, fun _ _ => ⟨rfl, rfl⟩, fun _ _ => rfl⟩

theorem State.onlyPair_of_onlyCircuit (r : RecordIdx) (h : s.onlyCircuit t c l) : s.onlyPair t c r l := by
  obtain ⟨form, others⟩ := h
  have messages : t.messages = s.messages := by rw [form]
  refine ⟨?_, others, fun r' _ => by rw [State.message, messages, State.message]⟩
  rw [State.eq_iff] at form ⊢
  simp_all

theorem State.onlyPair_trans (h : s.onlyPair t c r l) (h' : t.onlyPair u c r l') : s.onlyPair u c r (l ++ l') := by
  obtain ⟨form, others, records⟩ := h
  obtain ⟨form', others', records'⟩ := h'
  refine ⟨?_, fun d hd => ⟨(others' d hd).1.trans (others d hd).1, (others' d hd).2.trans (others d hd).2⟩,
    fun r' hr => (records' r' hr).trans (records r' hr)⟩
  have key := State.raiseAll_congr l' (s := t) (t := s.raiseAll l) (by rw [form]) (by rw [form]) (by rw [form]; simp)
  rw [State.raiseAll_append, ← key.1, ← key.2]
  rw [State.eq_iff] at form form' ⊢
  simp_all

theorem State.setting_of_onlyPair (h : s.onlyPair t c r l) (d : Circuit) (w : Nat) : t.setting d w = s.setting d w := by
  rw [h.1]
  rfl

theorem State.setting_of_onlyCircuit (h : s.onlyCircuit t c l) (d : Circuit) (w : Nat) :
    t.setting d w = s.setting d w := by
  rw [h.1]
  rfl

theorem State.message_of_onlyCircuit (h : s.onlyCircuit t c l) (q : RecordIdx) : t.message q = s.message q := by
  rw [h.1]
  rfl

theorem State.delivery_of_onlyCircuit (h : s.onlyCircuit t c l) (q : RecordIdx) (k : SlotIdx) :
    t.delivery q k = s.delivery q k := by
  rw [h.1]
  rfl

/-- One more change of circuit c. -/
theorem State.onlyPair.set (h : s.onlyPair u c r l) (x : CircuitState) : s.onlyPair (u.setCircuit c x) c r l := by
  simpa using State.onlyPair_trans h (State.onlyPair_of_onlyCircuit r (u.onlyCircuit_setCircuit c x))

/-- One more report. -/
theorem State.onlyPair.report (h : s.onlyPair u c r l) (p : Place) (g : Word) (k : ReportKind) :
    s.onlyPair (u.raise p g k) c r (l ++ [(p, g, k)]) :=
  State.onlyPair_trans h (State.onlyPair_of_onlyCircuit r (u.onlyCircuit_raise c p g k))

/-- One more change of record r. -/
theorem State.onlyPair.setRecord (h : s.onlyPair u c r l) {m : Message} (state : m.state = (u.message r).state) :
    s.onlyPair (u.setMessage r m) c r l := by
  have change : u.onlyPair (u.setMessage r m) c r [] := by
    refine ⟨?_, fun d _ => ⟨rfl, rfl⟩, fun r' hr => u.message_setMessage_ne m hr⟩
    have office : (u.setMessage r m).officeDirty = u.officeDirty :=
      u.setMessage_officeDirty_of_state r (by rw [state])
    rw [State.eq_iff]
    simp only [office]
    simp
  simpa using State.onlyPair_trans h change

end Pair

theorem State.onlyCircuit_raiseAll (s : State) (c : Circuit) (l : List (Place × Word × ReportKind)) :
    s.onlyCircuit (s.raiseAll l) c l := by
  induction l generalizing s with
  | nil => exact s.onlyCircuit_refl c
  | cons e l ih => exact State.onlyCircuit_trans (s.onlyCircuit_raise c e.1 e.2.1 e.2.2) (ih _)

theorem State.circuit_raiseAll (s : State) (c : Circuit) (l : List (Place × Word × ReportKind)) :
    (s.raiseAll l).circuit c = s.circuit c := by
  induction l generalizing s with
  | nil => rfl
  | cons e l ih => exact (ih _).trans (s.circuit_raise c _ _ _)

/-! ### A delivery returns to its queue (R97) -/

theorem State.absorbable_eq_none {s : State} {r : RecordIdx} {k : SlotIdx} {d : Delivery}
    (h : ∀ j : SlotIdx, j ≠ k → ∀ d', s.delivery r j = some d' → d'.state = .queued → s.sameTarget d d' = false) :
    s.absorbable r k d = none := by
  refine List.find?_eq_none.mpr fun j _ => ?_
  cases at' : s.delivery r j with
  | none => simp
  | some d' =>
    intro absorbs
    simp only [Bool.and_eq_true, decide_eq_true_eq] at absorbs
    obtain ⟨other, queued, same⟩ := absorbs
    rw [h j other d' at' queued] at same
    cases same

/-- The record with a delivery in slot k. -/
def Message.placed (m : Message) (k : SlotIdx) (d : Delivery) : Message := { m with slots := m.slots.set k (some d) }

/-- The delivery as it returns to its queue; a failed receipt keeps its saved number (R97, R128). -/
def Delivery.returned (d : Delivery) (keep : Bool) : Delivery :=
  { d with state := .queued, attempts := min (d.attempts + 1) 15, saved := if keep then d.saved else none }

/-- The circuit with a returned delivery at the head of queue p, in phase NONE. -/
def CircuitState.returned (x : CircuitState) (p : Precedence) (e : QueueEntry) : CircuitState :=
  { x with send := .none, queues := x.queues.put p ((x.queues.get p).joinHead e) }

theorem returnDelivery_eq {s : State} {c : Circuit} {r : RecordIdx} {k : SlotIdx} {d : Delivery} (keep : Bool)
    (active : (s.circuit c).send.active = some (r, k)) (at' : s.delivery r k = some d) (own : d.circuit = c)
    (alone : s.absorbable r k d = none) :
    returnDelivery c keep s = ((s.setMessage r ((s.message r).placed k (d.returned keep))).setCircuit c
      { s.circuit c with queues := ((s.circuit c).returned (s.message r).rank
        ⟨r, k, sentLength (s.message r) d.codes⟩).queues }).setCircuit c
      ((s.circuit c).returned (s.message r).rank ⟨r, k, sentLength (s.message r) d.codes⟩) := by
  subst own
  simp [returnDelivery, active, at', absorb, alone, endSend, CircuitState.returned, Message.placed, Delivery.returned]
  rfl

theorem returnDelivery_spec {s : State} {c : Circuit} {r : RecordIdx} {k : SlotIdx} {d : Delivery} (keep : Bool)
    (active : (s.circuit c).send.active = some (r, k)) (at' : s.delivery r k = some d) (own : d.circuit = c)
    (alone : s.absorbable r k d = none) :
    s.onlyPair (returnDelivery c keep s) c r [] ∧
    (returnDelivery c keep s).circuit c =
      (s.circuit c).returned (s.message r).rank ⟨r, k, sentLength (s.message r) d.codes⟩ ∧
    (returnDelivery c keep s).message r = (s.message r).placed k (d.returned keep) := by
  rw [returnDelivery_eq keep active at' own alone]
  exact ⟨(((s.onlyPair_refl c r).setRecord (m := (s.message r).placed k (d.returned keep)) rfl).set _).set _, by simp, by simp⟩

/-! ### A delivery ends -/

theorem endActive_eq {s : State} {c : Circuit} {r : RecordIdx} {k : SlotIdx} {d : Delivery} (state : DeliveryState)
    (at' : s.delivery r k = some d) :
    endActive c r k state s = (s.setMessage r ((s.message r).placed k { d with state := state })).setCircuit c
      { s.circuit c with send := .none } := by
  have slot : (s.message r).slots[k.val] = some d := at'
  simp [endActive, endSend, slot, Message.placed]

theorem endActive_spec {s : State} {c : Circuit} {r : RecordIdx} {k : SlotIdx} {d : Delivery} (state : DeliveryState)
    (at' : s.delivery r k = some d) :
    s.onlyPair (endActive c r k state s) c r [] ∧
    (endActive c r k state s).circuit c = { s.circuit c with send := .none } ∧
    (endActive c r k state s).message r = (s.message r).placed k { d with state := state } := by
  rw [endActive_eq state at']
  exact ⟨((s.onlyPair_refl c r).setRecord (m := (s.message r).placed k { d with state := state }) rfl).set _, by simp,
    by simp⟩

/-! ### Reception ends (R35, R38) -/

/-- What the end of a discard hands over (R35). -/
def State.lossReports (s : State) (c : Circuit) : List (Place × Word × ReportKind) :=
  let q := s.recogniser c
  let place := Place.circuit c (s.inboundStation c)
  match q.discardCause, q.filling with
  | some .tableFull, _ => [(place, 0, .receiveLoss true q.dropped)]
  | some .poolEmpty, some r => [(place, s.tag r, .receiveLoss false q.dropped)]
  | some .poolEmpty, none => [(place, 0, .receiveLoss false q.dropped)]
  | _, _ => []

/-- A discard for want of a record or a block is reported; one of length, or none, is not (R35). -/
theorem State.lossReports_of_length {s : State} {c : Circuit}
    (h : (s.recogniser c).discardCause = none ∨ (s.recogniser c).discardCause = some .length) : s.lossReports c = [] := by
  rcases h with h | h <;> simp [State.lossReports, h]

theorem State.lossReports_tableFull {s : State} {c : Circuit} (h : (s.recogniser c).discardCause = some .tableFull) :
    s.lossReports c = [(.circuit c (s.inboundStation c), 0, .receiveLoss true (s.recogniser c).dropped)] := by
  simp [State.lossReports, h]

theorem State.lossReports_poolEmpty {s : State} {c : Circuit} {r : RecordIdx}
    (h : (s.recogniser c).discardCause = some .poolEmpty) (filling : (s.recogniser c).filling = some r) :
    s.lossReports c = [(.circuit c (s.inboundStation c), s.tag r, .receiveLoss false (s.recogniser c).dropped)] := by
  simp [State.lossReports, h, filling]

theorem discardEnd_spec (c : Circuit) (s : State) : s.onlyCircuit (discardEnd c s) c (s.lossReports c) ∧
    (discardEnd c s).circuit c = { s.circuit c with
      recogniser := { (s.circuit c).recogniser with discardCause := none, dropped := 0 } } := by
  have form : discardEnd c s = (s.raiseAll (s.lossReports c)).updRecogniser c fun q =>
      { q with discardCause := none, dropped := 0 } := by
    unfold discardEnd State.lossReports
    cases discard : (s.recogniser c).discardCause with
    | none => simp [discard]
    | some cause => cases cause <;> cases filling : (s.recogniser c).filling <;> simp [discard, filling]
  have reports : s.onlyCircuit (s.raiseAll (s.lossReports c)) c (s.lossReports c) := State.onlyCircuit_raiseAll s c _
  have same : (s.raiseAll (s.lossReports c)).circuit c = s.circuit c := State.circuit_raiseAll s c _
  rw [form]
  exact ⟨reports.set _, by simp [same]⟩

/-- The circuit whose message has ended (R38). -/
def CircuitState.ended (x : CircuitState) (cause : EndCause) (lineStart : Bool) : CircuitState :=
  { x with
    textFifo := match x.recogniser.filling with
      | some r => x.textFifo ++ [.ending r cause]
      | none => x.textFifo
    recogniser := { x.recogniser with
      state := .hunt, lineStart := lineStart, held := [], somCount := 0, filling := none, discardCause := none
      dropped := 0 } }

/-- The message ended is clean: an EOM, its flags clean (R132). -/
def State.endsClean (s : State) (c : Circuit) (cause : EndCause) : Bool :=
  match (s.recogniser c).filling with
  | some r => decide (cause = .eom) && (s.message r).flags.clean
  | none => false

theorem endMessage_spec (c : Circuit) (cause : EndCause) (lineStart : Bool) (s : State) :
    ∃ u, endMessage c cause lineStart s = dialogueEnding c cause (s.endsClean c cause) u ∧
    s.onlyCircuit u c (s.lossReports c) ∧ u.circuit c = (s.circuit c).ended cause lineStart := by
  obtain ⟨reports, at'⟩ := discardEnd_spec c s
  obtain ⟨w, hw⟩ : ∃ w, w = discardEnd c s := ⟨_, rfl⟩
  rw [← hw] at reports at'
  have filling : (w.recogniser c).filling = (s.recogniser c).filling := by rw [State.recogniser, at', State.recogniser]
  have message (r : RecordIdx) : w.message r = s.message r := by rw [State.message, reports.1, State.message]
  unfold endMessage State.endsClean CircuitState.ended
  simp only [← hw, filling, message]
  cases at'' : (s.recogniser c).filling with
  | none =>
    have at3 : (s.circuit c).recogniser.filling = none := at''
    exact ⟨_, rfl, reports.set _, by simp [at', at3]⟩
  | some r =>
    have at3 : (s.circuit c).recogniser.filling = some r := at''
    exact ⟨_, rfl, (reports.set _).set _, by simp [at', at3]⟩

theorem dialogueEnding_point {s : State} {c : Circuit} (cause : EndCause) (clean : Bool)
    (h : s.isParty c = false ∨ (s.circuit c).dialogue.state ≠ .inbound) : dialogueEnding c cause clean s = s := by
  rcases h with h | h <;> simp [dialogueEnding, h]

/-- On a point circuit a message's end is a change of the circuit (R38). -/
theorem endMessage_point {s : State} {c : Circuit} (cause : EndCause) (lineStart : Bool) (point : s.isParty c = false) :
    s.onlyCircuit (endMessage c cause lineStart s) c (s.lossReports c) ∧
    (endMessage c cause lineStart s).circuit c = (s.circuit c).ended cause lineStart := by
  obtain ⟨u, e, only, at'⟩ := endMessage_spec c cause lineStart s
  have point' : u.isParty c = false := by
    rw [State.isParty, at']
    exact point
  rw [e, dialogueEnding_point _ _ (.inl point')]
  exact ⟨only, at'⟩

end Sys2Proof.Machine
end

section
/-! PROOF. How a circuit is closed or stopped: the delivery being sent returns, the reception ends, the dialogue is QUIET
(chapters 1, 6 and 8). -/

namespace Sys2Proof.Machine

/-! ### Breaking off (R113) -/

/-- The character on the line goes on without a source (R10, R113). -/
def State.orphaned (s : State) (c : Circuit) : State := s.updLine c fun l => { l with transmitter := l.transmitter.orphan }

theorem State.circuit_orphaned (s : State) (c : Circuit) : (s.orphaned c).circuit c = { s.circuit c with
    line := { (s.circuit c).line with transmitter := (s.circuit c).line.transmitter.orphan } } :=
  s.circuit_setCircuit_self c _

theorem State.onlyCircuit_orphaned (s : State) (c : Circuit) : s.onlyCircuit (s.orphaned c) c [] :=
  s.onlyCircuit_setCircuit c _

theorem breakOff_idle {s : State} {c : Circuit} (idle : (s.circuit c).send = .none) : breakOff c s = s.orphaned c := by
  have none' : ((s.orphaned c).circuit c).send.active = none := by simp [State.circuit_orphaned, idle, SendController.none]
  rw [breakOff, idle]
  exact (if_neg (by decide)).trans (by
    show returnDelivery c false (s.orphaned c) = s.orphaned c
    simp [returnDelivery, none'])

/-- On a point circuit no QUEUED delivery for it is one that none absorbs (R80, R97). -/
theorem State.absorbable_point {s : State} {c : Circuit} {r : RecordIdx} {k : SlotIdx} {d : Delivery} (own : d.circuit = c)
    (alone : ∀ j : SlotIdx, j ≠ k → ∀ d', s.delivery r j = some d' → ¬ (d'.state = .queued ∧ d'.circuit = c)) :
    s.absorbable r k d = none :=
  State.absorbable_eq_none fun j other d' at' queued => by
    have apart : d'.circuit ≠ d.circuit := fun e => alone j other d' at' ⟨queued, e.trans own⟩
    simp [State.sameTarget, Ne.symm apart]

theorem breakOff_returns {s : State} {c : Circuit} {r : RecordIdx} {k : SlotIdx} {d : Delivery}
    (active : (s.circuit c).send.active = some (r, k)) (at' : s.delivery r k = some d) (own : d.circuit = c)
    (noOrder : (s.circuit c).send.pendingCancel = false) (cause : (s.circuit c).send.cause ≠ some .order)
    (alone : ∀ j : SlotIdx, j ≠ k → ∀ d', s.delivery r j = some d' → ¬ (d'.state = .queued ∧ d'.circuit = c)) :
    s.onlyPair (breakOff c s) c r [] ∧
    (breakOff c s).circuit c = { (s.circuit c).returned (s.message r).rank ⟨r, k, sentLength (s.message r) d.codes⟩ with
      line := { (s.circuit c).line with transmitter := (s.circuit c).line.transmitter.orphan } } ∧
    (breakOff c s).message r = (s.message r).placed k (d.returned false) := by
  have form : breakOff c s = returnDelivery c false (s.orphaned c) := if_neg (by simp [noOrder, cause])
  have active' : ((s.orphaned c).circuit c).send.active = some (r, k) := by rw [s.circuit_orphaned, active]
  obtain ⟨only, circuit, message⟩ := returnDelivery_spec (s := s.orphaned c) false active' at' own (State.absorbable_point own alone)
  rw [form]
  refine ⟨State.onlyPair_trans (l := []) (State.onlyPair_of_onlyCircuit r (s.onlyCircuit_orphaned c)) only, ?_, message⟩
  rw [circuit, s.circuit_orphaned]
  rfl

/-! ### The dialogue and the reception (R37, R137) -/

theorem quietParty_point {s : State} {c : Circuit} (h : s.isParty c = false) : quietParty c s = s := by
  simp [quietParty, h]

theorem stopReception_hunt {s : State} {c : Circuit} (h : (s.recogniser c).state = .hunt) : stopReception c s = s := by
  simp [stopReception, h]

/-- On a point circuit a message being received ends, truncated (R37). -/
theorem stopReception_filling {s : State} {c : Circuit} {r : RecordIdx} (point : s.isParty c = false)
    (receives : (s.recogniser c).state ≠ .hunt) (filling : (s.recogniser c).filling = some r)
    (discard : (s.recogniser c).discardCause = none ∨ (s.recogniser c).discardCause = some .length) :
    s.onlyPair (stopReception c s) c r [] ∧
    (stopReception c s).circuit c = (s.circuit c).ended .stopped true ∧
    (stopReception c s).message r =
      { s.message r with flags := { (s.message r).flags with truncated := true } } := by
  obtain ⟨u, hu⟩ : ∃ u, u = markTruncated c (s.updRecogniser c fun q => { q with held := [] }) := ⟨_, rfl⟩
  have form : stopReception c s = endMessage c .stopped true u := hu ▸ if_neg receives
  have marked : u = (s.updRecogniser c fun q => { q with held := [] }).setMessage r
      { s.message r with flags := { (s.message r).flags with truncated := true } } := by
    have filling' : (s.circuit c).recogniser.filling = some r := filling
    simp [hu, markTruncated, State.recogniser, filling']
  have at' : u.circuit c = { s.circuit c with recogniser := { (s.circuit c).recogniser with held := [] } } := by
    simp [marked]
  have losses : u.lossReports c = [] := State.lossReports_of_length (by
    rw [State.recogniser, at']
    exact discard)
  obtain ⟨only, ended⟩ := endMessage_point (s := u) .stopped true (by
    rw [State.isParty, at']
    exact point)
  rw [losses] at only
  rw [form]
  refine ⟨State.onlyPair_trans (l := []) ?_ (State.onlyPair_of_onlyCircuit r only), ?_, ?_⟩
  · rw [marked]
    exact ((s.onlyPair_refl c r).set _).setRecord rfl
  · rw [ended, at']
    rfl
  · rw [State.message, only.1, marked]
    exact State.message_setMessage_self _ _ _

/-! ### Closing (R146) -/

/-- A written command that then changes its circuit and one record. -/
theorem State.frame_commandedPair {s w t : State} {clears : Vector Bool 32} {l : List (Place × Word × ReportKind)}
    (form : w = { s with
      store := w.store, arbiter := .granted .passage 0, pendingClear := clears
      circuits := w.circuits, circuitDirty := w.circuitDirty, reports := s.reports, officeDirty := s.officeDirty })
    (pair : t = { w with
      circuits := t.circuits, circuitDirty := t.circuitDirty, messages := t.messages, messageDirty := t.messageDirty
      reports := (w.raiseAll l).reports, officeDirty := (w.raiseAll l).officeDirty }) :
    t = { s with
      store := t.store, arbiter := .granted .passage 0, pendingClear := clears
      circuits := t.circuits, circuitDirty := t.circuitDirty, messages := t.messages, messageDirty := t.messageDirty
      reports := (s.raiseAll l).reports, officeDirty := (s.raiseAll l).officeDirty } := by
  have key := State.raiseAll_congr l (s := w) (t := s) (by rw [form]) (by rw [form]) (by rw [form])
  rw [← key.1, ← key.2]
  rw [State.eq_iff] at pair form ⊢
  simp_all

/-- The circuit CLOSED, its receiver STOPPED. -/
def CircuitState.closed (x : CircuitState) : CircuitState :=
  { x with
    line := { x.line with receiver := .stopped }
    control := { x.control with state := .closed, holdPending := false, retryTimer := none } }

/-- The last steps of a CLOSE. -/
def closeLine (c : Circuit) (s : State) : State :=
  setMode c .closed .close ((s.updControl c fun k => { k with holdPending := false, retryTimer := none }).updLine c
    fun l => { l with receiver := .stopped })

theorem closeCircuit_eq (c : Circuit) (s : State) :
    closeCircuit c s = closeLine c (stopReception c (quietParty c (breakOff c s))) := rfl

theorem closeLine_spec (c : Circuit) (s : State) :
    s.onlyCircuit (closeLine c s) c [(.circuit c none, 0, .circuitState .closed .close)] ∧
    (closeLine c s).circuit c = (s.circuit c).closed := by
  have enters (u : State) := setMode_spec c .closed .close u (.inr (by decide))
  refine ⟨State.onlyCircuit_trans (l := []) (State.onlyCircuit_trans (l := []) (l' := [])
    (s.onlyCircuit_setCircuit c _) (State.onlyCircuit_setCircuit _ c _)) (enters _).1, ?_⟩
  rw [closeLine, (enters _).2]
  simp [CircuitState.closed]

theorem closeCircuit_point {s : State} {c : Circuit} (point : ((breakOff c s).isParty c) = false)
    (hunts : ((breakOff c s).recogniser c).state = .hunt) : closeCircuit c s = closeLine c (breakOff c s) := by
  rw [closeCircuit_eq, quietParty_point point, stopReception_hunt hunts]

end Sys2Proof.Machine

open Sys2Proof Sys2Proof.Machine

/-- Settles O52: the break-off of the transmission, and the circuit CLOSED. -/
theorem closeReturnsTheDeliveryBeingSent : Obligations.CloseReturnsTheDeliveryBeingSent := by
  unfold Obligations.CloseReturnsTheDeliveryBeingSent
  intro c argument s granted lawful state idle point hunts x closed told
  have passes : s.commandRefusal c .close argument = none :=
    State.commandRefusal_passes idle (by simp [Controller.allows, state]) (by simp) (by simp)
  refine ⟨fun none' => ?_, fun r k d active at' own noOrder cause alone => ?_⟩
  · have closes (u : State) (circuits : u.circuits = s.circuits) : closeCircuit c u = closeLine c (u.orphaned c) := by
      have same := State.circuit_congr circuits c
      have broken : breakOff c u = u.orphaned c := breakOff_idle (by rw [same]; exact none')
      rw [closeCircuit_point, broken]
      · rw [broken, State.isParty, u.circuit_orphaned, same]
        exact point
      · rw [broken, State.recogniser, u.circuit_orphaned, same]
        exact hunts
    refine ⟨_, exec_acts (i := .closeCommand c argument) (cmd := .close) (f := fun u => closeLine c (u.orphaned c))
      granted lawful rfl (by decide) rfl passes (closes (s.commanded c 2 argument) rfl)
      (fun u _ _ => State.onlyCircuit_trans (l := []) (u.onlyCircuit_orphaned c) (closeLine_spec c _).1)
      fun u circuits _ => ?_⟩
    rw [(closeLine_spec c _).2, u.circuit_orphaned, State.circuit_congr circuits]
    rfl
  · intro m returned queue length
    obtain ⟨w, hw⟩ : ∃ w, w = s.commanded c 2 argument := ⟨_, rfl⟩
    have took := State.tookCommand_commanded lawful c 2 argument
    rw [← hw] at took
    obtain ⟨form, others, wrote⟩ := took
    have circuit : w.circuit c = s.circuit c := hw ▸ rfl
    have delivery (j : SlotIdx) : w.delivery r j = s.delivery r j := hw ▸ rfl
    have record (r' : RecordIdx) : w.message r' = s.message r' := hw ▸ rfl
    obtain ⟨breaks, at1, record1⟩ := breakOff_returns (s := w) (by rw [circuit]; exact active) ((delivery k).trans at') own
      (by rw [circuit]; exact noOrder) (by rw [circuit]; exact cause)
      (fun j other d' h => alone j other d' ((delivery j).symm.trans h))
    obtain ⟨closes, at2⟩ := closeLine_spec c (breakOff c w)
    obtain ⟨pair, others', records⟩ := State.onlyPair_trans breaks (State.onlyPair_of_onlyCircuit r closes)
    have acts : closeCircuit c w = closeLine c (breakOff c w) := closeCircuit_point
      (by rw [State.isParty, at1, circuit]; exact point) (by rw [State.recogniser, at1, circuit]; exact hunts)
    obtain ⟨t, ht⟩ : ∃ t, t = closeLine c (breakOff c w) := ⟨_, rfl⟩
    rw [← ht] at acts at2 closes pair others' records
    have runs : exec (.closeCommand c argument) s = .next t := by
      have runs : exec (.closeCommand c argument) s = .next (presentCommand c 2 argument s) := rfl
      have effect : actOn c .close argument (s.commanded c 2 argument) = closeCircuit c (s.commanded c 2 argument) := rfl
      rw [← acts, hw, runs, presentCommand_acts granted (by decide) rfl passes, effect]
    refine ⟨t, runs, ?_, ?_, fun e he => ⟨((others' e he).1).trans (others e he).1,
      ((others' e he).2).trans (others e he).2⟩, ?_, fun r' other => (records r' other).trans (record r'), ?_⟩
    · exact State.frame_commandedPair form pair
    · exact State.wroteWord_congr wrote (by rw [pair])
    · rw [at2, at1, circuit, record]
      rfl
    · rw [State.message, closes.1]
      exact record1.trans (by rw [record]; rfl)

end

section
/-! PROOF. The detections of the line watch and the line check (R14 to R16, R145, R152 to R155). -/

namespace Sys2Proof.Machine

/-! ### What a detection does, by state and mode (R152, R155) -/

/-- The detection is let fall (R152). -/
abbrev State.letsFall (s : State) (c : Circuit) (kind : FaultKind) : Prop :=
  (s.circuit c).control.state = .closed ∨ (s.circuit c).control.state = .retryWait ∨
    ((s.circuit c).control.state = .checking ∧ kind = .framing)

theorem detect_falls {s : State} {c : Circuit} {kind : FaultKind} (h : s.letsFall c kind) : detect c kind s = s := by
  rcases h with h | h | ⟨h, framing⟩
  · simp [detect, h]
  · simp [detect, h]
  · simp [detect, h, framing]

/-- What is not let fall goes by the fault mode. -/
theorem detect_eq {s : State} {c : Circuit} {kind : FaultKind} (h : ¬ s.letsFall c kind) : detect c kind s =
    match faultModeOf (s.setting c 0) with
    | .ignore => s
    | .report => s.raise (.circuit c none) 0 (.lineFault kind .report)
    | .latched => if (s.circuit c).control.state = .fault then addFault c kind .latched s
      else stopCircuit c kind .latched s
    | .retry => if (s.circuit c).control.state = .fault then addFault c kind .retry s
      else stopCircuit c kind .retry s := by
  have outside : ((decide ((s.circuit c).control.state = .closed) || decide ((s.circuit c).control.state = .retryWait))) =
      false := by
    rw [← Bool.not_eq_true]
    simp only [Bool.or_eq_true, decide_eq_true_eq]
    exact fun e => h (e.elim .inl fun e => .inr (.inl e))
  have seen : (decide ((s.circuit c).control.state = .checking) && decide (kind = .framing)) = false := by
    rw [← Bool.not_eq_true]
    simp only [Bool.and_eq_true, decide_eq_true_eq]
    exact fun e => h (.inr (.inr e))
  simp only [detect, outside, seen]
  cases faultModeOf (s.setting c 0) <;> simp

theorem detect_reports {s : State} {c : Circuit} {kind : FaultKind} (h : ¬ s.letsFall c kind)
    (mode : faultModeOf (s.setting c 0) = .report) :
    detect c kind s = s.raise (.circuit c none) 0 (.lineFault kind .report) := by rw [detect_eq h, mode]

theorem detect_ignores {s : State} {c : Circuit} {kind : FaultKind} (h : ¬ s.letsFall c kind)
    (mode : faultModeOf (s.setting c 0) = .ignore) : detect c kind s = s := by rw [detect_eq h, mode]

theorem detect_latchedOrRetry {s : State} {c : Circuit} {kind : FaultKind} {mode : FaultMode} (h : ¬ s.letsFall c kind)
    (inForce : faultModeOf (s.setting c 0) = mode) (stops : mode = .latched ∨ mode = .retry) :
    detect c kind s = if (s.circuit c).control.state = .fault then addFault c kind mode s
      else stopCircuit c kind mode s := by
  rcases stops with rfl | rfl <;> rw [detect_eq h, inForce]

/-! ### The trips (R14 to R16) -/

theorem exec_openReceiveTrip {s : State} {c : Circuit} (armed : (s.circuit c).line.openDetector = .armed)
    (due : (s.circuit c).control.effective.openLineTime ≤ (s.circuit c).line.openCount) :
    exec (.openReceiveTrip c) s = .next (detect c .openReceive (s.setCircuit c { s.circuit c with
      line := { (s.circuit c).line with openDetector := .tripped, openMarkRun := 0 } })) :=
  congrArg Host.Outcome.next (if_pos (by simp [LineUnit.openTripDue, armed, due]))

theorem exec_sendLoopOpenTrip {s : State} {c : Circuit} (armed : (s.circuit c).line.loopDetector = .armed)
    (due : 10 ≤ (s.circuit c).line.loopCount) :
    exec (.sendLoopOpenTrip c) s = .next (detect c .sendLoopOpen (s.setCircuit c { s.circuit c with
      line := { (s.circuit c).line with loopDetector := .tripped } })) :=
  congrArg Host.Outcome.next (if_pos (by simp [LineUnit.loopTripDue, armed, due]))

theorem exec_framingTrip {s : State} {c : Circuit} (armed : (s.circuit c).line.framingDetector = .armed)
    (due : 4 ≤ (s.circuit c).line.framingCount) :
    exec (.framingTrip c) s = .next (detect c .framing (s.setCircuit c { s.circuit c with
      line := { (s.circuit c).line with framingDetector := .tripped } })) :=
  congrArg Host.Outcome.next (if_pos (by simp [LineUnit.framingTripDue, armed, due]))

theorem exec_noLine {s : State} {c : Circuit} (checking : (s.circuit c).control.state = .checking)
    (count : (s.circuit c).control.checkCount = 1000) (marks : (s.circuit c).control.markRun < 100)
    (unreported : (s.circuit c).control.noLineReported = false) :
    exec (.noLine c) s = .next (detect c .noLine (s.setCircuit c { s.circuit c with
      control := { (s.circuit c).control with noLineReported := true } })) :=
  congrArg Host.Outcome.next (if_pos (by simp [Controller.noLineDue, checking, count, marks, unreported]))

/-! ### A quiet detection -/

/-- A detection that disturbs nothing raises at most LINE_FAULT with the mode REPORT (R155). -/
theorem detect_quiet {s : State} {c : Circuit} {kind : FaultKind}
    (quiet : s.letsFall c kind ∨ faultModeOf (s.setting c 0) = .report ∨ faultModeOf (s.setting c 0) = .ignore) :
    s.onlyCircuit (detect c kind s) c (if ¬ s.letsFall c kind ∧ faultModeOf (s.setting c 0) = .report
      then [(.circuit c none, 0, .lineFault kind .report)] else []) ∧
    (detect c kind s).circuit c = s.circuit c := by
  by_cases falls : s.letsFall c kind
  · rw [detect_falls falls, if_neg fun e => e.1 falls]
    exact ⟨s.onlyCircuit_refl c, rfl⟩
  · rcases quiet.resolve_left falls with mode | mode
    · rw [detect_reports falls mode, if_pos ⟨falls, mode⟩]
      exact ⟨s.onlyCircuit_raise c _ _ _, s.circuit_raise c _ _ _⟩
    · rw [detect_ignores falls mode, if_neg (by simp [mode])]
      exact ⟨s.onlyCircuit_refl c, rfl⟩

/-- The same after a change of the circuit that leaves its controller's state. -/
theorem detect_quiet_set {s : State} {c : Circuit} {kind : FaultKind} {x : CircuitState}
    (state : x.control.state = (s.circuit c).control.state)
    (quiet : s.letsFall c kind ∨ faultModeOf (s.setting c 0) = .report ∨ faultModeOf (s.setting c 0) = .ignore) :
    s.onlyCircuit (detect c kind (s.setCircuit c x)) c (if ¬ s.letsFall c kind ∧ faultModeOf (s.setting c 0) = .report
      then [(.circuit c none, 0, .lineFault kind .report)] else []) ∧
    (detect c kind (s.setCircuit c x)).circuit c = x := by
  have falls : (s.setCircuit c x).letsFall c kind ↔ s.letsFall c kind := by
    simp only [State.letsFall, s.circuit_setCircuit_self, state]
  have told := detect_quiet (s := s.setCircuit c x) (kind := kind) (quiet.imp_left falls.mpr)
  simp only [falls, State.setting_setCircuit] at told
  exact ⟨State.onlyCircuit_trans (l := []) (s.onlyCircuit_setCircuit c x) told.1,
    told.2.trans (s.circuit_setCircuit_self c x)⟩

/-! ### The circuit stops (R153, R154) -/

/-- LINE_FAULT, raised for a kind that is new in the fault set (R153). -/
def State.faultReports (s : State) (c : Circuit) (kind : FaultKind) (mode : FaultMode) :
    List (Place × Word × ReportKind) :=
  if (s.circuit c).control.faults.has kind then [] else [(.circuit c none, 0, .lineFault kind mode)]

theorem addFault_spec (c : Circuit) (kind : FaultKind) (mode : FaultMode) (s : State) :
    s.onlyCircuit (addFault c kind mode s) c (s.faultReports c kind mode) ∧
    (addFault c kind mode s).circuit c = { s.circuit c with
      control := { (s.circuit c).control with faults := (s.circuit c).control.faults.add kind } } := by
  cases known : (s.circuit c).control.faults.has kind with
  | true =>
    simp only [addFault, State.faultReports, known, if_true]
    exact ⟨s.onlyCircuit_setCircuit c _, by simp⟩
  | false =>
    simp only [addFault, State.faultReports, known, Bool.false_eq_true, if_false]
    exact ⟨State.onlyCircuit_trans (l := []) (s.onlyCircuit_setCircuit c _) (State.onlyCircuit_raise _ c _ _ _), by simp⟩

/-- The state in which the circuit stops (R153). -/
def stoppedMode (mode : FaultMode) : CircuitMode := if mode = .retry then .retryWait else .fault

/-- The circuit stopped, with the retry timer's load (R153, R154). -/
def CircuitState.stoppedBy (x : CircuitState) (mode : FaultMode) (ticks : Nat) : CircuitState :=
  { x with control := { x.control with
      state := stoppedMode mode, holdPending := false
      retryCount := if mode = .retry then min (x.control.retryCount + 1) 255 else x.control.retryCount
      retryTimer := if mode = .retry then some ticks else x.control.retryTimer } }

/-- The last steps of a detection that stops the circuit. -/
def enterStopped (c : Circuit) (mode : FaultMode) (s : State) : State :=
  let s := s.updControl c fun k => { k with holdPending := false }
  if mode = .retry then enterRetryWait c s else setMode c .fault .lineFault s

theorem stopCircuit_eq (c : Circuit) (kind : FaultKind) (mode : FaultMode) (s : State) : stopCircuit c kind mode s =
    enterStopped c mode (quietParty c (stopReception c (breakOff c (addFault c kind mode s)))) := rfl

theorem enterStopped_spec (c : Circuit) (mode : FaultMode) (s : State) :
    s.onlyCircuit (enterStopped c mode s) c [(.circuit c none, 0, .circuitState (stoppedMode mode) .lineFault)] ∧
    (enterStopped c mode s).circuit c = (s.circuit c).stoppedBy mode (retryTicksOf (s.setting c 0)) := by
  have enters (m : CircuitMode) (other : m ≠ .ready ∧ m ≠ .held) (u : State) := setMode_spec c m .lineFault u (.inr other)
  unfold enterStopped CircuitState.stoppedBy stoppedMode
  by_cases retry : mode = .retry
  · simp only [retry, if_true]
    refine ⟨State.onlyCircuit_trans (l := []) (s.onlyCircuit_setCircuit c _) (State.onlyCircuit_trans (l := [])
      (State.onlyCircuit_setCircuit _ c _) (enters .retryWait (by decide) _).1), ?_⟩
    rw [enterRetryWait, (enters .retryWait (by decide) _).2]
    simp
  · simp only [retry, if_false]
    refine ⟨State.onlyCircuit_trans (l := []) (s.onlyCircuit_setCircuit c _) (enters .fault (by decide) _).1, ?_⟩
    rw [(enters .fault (by decide) _).2]
    simp

/-- The circuit with the kind in its fault set and the character on the line without a source. -/
def CircuitState.faulted (x : CircuitState) (kind : FaultKind) : CircuitState :=
  { x with
    line := { x.line with transmitter := x.line.transmitter.orphan }
    control := { x.control with faults := x.control.faults.add kind } }

theorem quietParty_spec (c : Circuit) (s : State) : s.onlyCircuit (quietParty c s) c [] ∧
    (quietParty c s).circuit c = if s.isParty c then
      { s.circuit c with dialogue := { (s.circuit c).dialogue with
          state := .quiet, answerTimer := none, pollTimer := none, pollExpired := false, matchPos := 0
          pollReply := none, replyOwed := none, lineEndWait := false } }
      else s.circuit c := by
  cases party : s.isParty c with
  | true =>
    rw [quietParty, if_pos party]
    exact ⟨s.onlyCircuit_setCircuit c _, by simp [stopDialogue]⟩
  | false =>
    rw [quietParty_point party]
    exact ⟨s.onlyCircuit_refl c, rfl⟩

/-- An idle circuit stops (R153). -/
theorem stopCircuit_idle {s : State} {c : Circuit} (kind : FaultKind) (mode : FaultMode)
    (idle : (s.circuit c).send = .none) (hunts : (s.recogniser c).state = .hunt) :
    s.onlyCircuit (stopCircuit c kind mode s) c
      (s.faultReports c kind mode ++ [(.circuit c none, 0, .circuitState (stoppedMode mode) .lineFault)]) ∧
    (stopCircuit c kind mode s).circuit c = (if s.isParty c then
      { (s.circuit c).faulted kind with dialogue := { (s.circuit c).dialogue with
          state := .quiet, answerTimer := none, pollTimer := none, pollExpired := false, matchPos := 0
          pollReply := none, replyOwed := none, lineEndWait := false } }
      else (s.circuit c).faulted kind).stoppedBy mode (retryTicksOf (s.setting c 0)) := by
  obtain ⟨adds, at1⟩ := addFault_spec c kind mode s
  obtain ⟨w, hw⟩ : ∃ w, w = addFault c kind mode s := ⟨_, rfl⟩
  rw [← hw] at adds at1
  have broken : breakOff c w = w.orphaned c := breakOff_idle (by rw [at1]; exact idle)
  have at2 : (w.orphaned c).circuit c = (s.circuit c).faulted kind := by
    rw [w.circuit_orphaned, at1]
    rfl
  have hunts' : ((w.orphaned c).recogniser c).state = .hunt := by
    rw [State.recogniser, at2]
    exact hunts
  obtain ⟨quiets, at3⟩ := quietParty_spec c (w.orphaned c)
  obtain ⟨v, hv⟩ : ∃ v, v = quietParty c (w.orphaned c) := ⟨_, rfl⟩
  have form : stopCircuit c kind mode s = enterStopped c mode v := by
    rw [stopCircuit_eq, ← hw, broken, stopReception_hunt hunts', hv]
  obtain ⟨stops, at4⟩ := enterStopped_spec c mode v
  rw [← hv] at quiets at3
  have setting : v.setting c 0 = s.setting c 0 := calc
    v.setting c 0 = (w.orphaned c).setting c 0 := State.setting_of_onlyCircuit quiets c 0
    _ = w.setting c 0 := State.setting_of_onlyCircuit (w.onlyCircuit_orphaned c) c 0
    _ = s.setting c 0 := State.setting_of_onlyCircuit adds c 0
  have party : (w.orphaned c).isParty c = s.isParty c := by
    rw [State.isParty, at2]
    rfl
  rw [form]
  refine ⟨State.onlyCircuit_trans adds (State.onlyCircuit_trans (l := []) (State.onlyCircuit_trans (l := []) (l' := [])
    (w.onlyCircuit_orphaned c) quiets) stops), ?_⟩
  rw [at4, at3, at2, party, setting]
  rfl

/-- A delivery being sent on a point circuit returns as the circuit stops (R113, R153). -/
theorem stopCircuit_sending {s : State} {c : Circuit} {r : RecordIdx} {k : SlotIdx} {d : Delivery} (kind : FaultKind)
    (mode : FaultMode) (point : s.isParty c = false) (hunts : (s.recogniser c).state = .hunt)
    (active : (s.circuit c).send.active = some (r, k)) (at' : s.delivery r k = some d) (own : d.circuit = c)
    (noOrder : (s.circuit c).send.pendingCancel = false) (cause : (s.circuit c).send.cause ≠ some .order)
    (alone : ∀ j : SlotIdx, j ≠ k → ∀ d', s.delivery r j = some d' → ¬ (d'.state = .queued ∧ d'.circuit = c)) :
    s.onlyPair (stopCircuit c kind mode s) c r
      (s.faultReports c kind mode ++ [(.circuit c none, 0, .circuitState (stoppedMode mode) .lineFault)]) ∧
    (stopCircuit c kind mode s).circuit c =
      (((s.circuit c).faulted kind).returned (s.message r).rank ⟨r, k, sentLength (s.message r) d.codes⟩).stoppedBy mode
        (retryTicksOf (s.setting c 0)) ∧
    (stopCircuit c kind mode s).message r = (s.message r).placed k (d.returned false) := by
  obtain ⟨adds, at1⟩ := addFault_spec c kind mode s
  obtain ⟨w, hw⟩ : ∃ w, w = addFault c kind mode s := ⟨_, rfl⟩
  rw [← hw] at adds at1
  have delivery := State.delivery_of_onlyCircuit adds r
  have message := State.message_of_onlyCircuit adds r
  obtain ⟨breaks, at2, record⟩ := breakOff_returns (s := w) (by rw [at1]; exact active) ((delivery k).trans at') own
    (by rw [at1]; exact noOrder) (by rw [at1]; exact cause)
    fun j other d' h => alone j other d' ((delivery j).symm.trans h)
  obtain ⟨v, hv⟩ : ∃ v, v = breakOff c w := ⟨_, rfl⟩
  rw [← hv] at breaks at2 record
  rw [at1, message] at at2
  have hunts' : (v.recogniser c).state = .hunt := by
    rw [State.recogniser, at2]
    exact hunts
  have point' : v.isParty c = false := by
    rw [State.isParty, at2]
    exact point
  obtain ⟨stops, at3⟩ := enterStopped_spec c mode v
  have form : stopCircuit c kind mode s = enterStopped c mode v := by
    rw [stopCircuit_eq, ← hw, ← hv, stopReception_hunt hunts', quietParty_point point']
  have setting : v.setting c 0 = s.setting c 0 :=
    (State.setting_of_onlyPair breaks c 0).trans (State.setting_of_onlyCircuit adds c 0)
  rw [form]
  refine ⟨State.onlyPair_trans (State.onlyPair_of_onlyCircuit r adds) (State.onlyPair_trans (l := []) breaks
    (State.onlyPair_of_onlyCircuit r stops)), ?_, ?_⟩
  · rw [at3, at2, setting]
    rfl
  · rw [State.message_of_onlyCircuit stops, record, message]

/-- A message being received on a point circuit ends, truncated, as the circuit stops (R37, R153). -/
theorem stopCircuit_receiving {s : State} {c : Circuit} {r : RecordIdx} (kind : FaultKind)
    (mode : FaultMode) (point : s.isParty c = false) (idle : (s.circuit c).send = .none)
    (receives : (s.recogniser c).state ≠ .hunt) (filling : (s.recogniser c).filling = some r)
    (discard : (s.recogniser c).discardCause = none ∨ (s.recogniser c).discardCause = some .length) :
    s.onlyPair (stopCircuit c kind mode s) c r
      (s.faultReports c kind mode ++ [(.circuit c none, 0, .circuitState (stoppedMode mode) .lineFault)]) ∧
    (stopCircuit c kind mode s).circuit c =
      (((s.circuit c).faulted kind).ended .stopped true).stoppedBy mode (retryTicksOf (s.setting c 0)) ∧
    (stopCircuit c kind mode s).message r =
      { s.message r with flags := { (s.message r).flags with truncated := true } } := by
  obtain ⟨adds, at1⟩ := addFault_spec c kind mode s
  obtain ⟨w, hw⟩ : ∃ w, w = addFault c kind mode s := ⟨_, rfl⟩
  rw [← hw] at adds at1
  have broken : breakOff c w = w.orphaned c := breakOff_idle (by rw [at1]; exact idle)
  have at2 : (w.orphaned c).circuit c = (s.circuit c).faulted kind := by
    rw [w.circuit_orphaned, at1]
    rfl
  have recogniser : (w.orphaned c).recogniser c = s.recogniser c := by
    rw [State.recogniser, at2]
    rfl
  obtain ⟨v, hv⟩ : ∃ v, v = stopReception c (w.orphaned c) := ⟨_, rfl⟩
  obtain ⟨ends, at3, record⟩ := stopReception_filling (s := w.orphaned c) (by rw [State.isParty, at2]; exact point)
    (by rw [recogniser]; exact receives) (by rw [recogniser]; exact filling) (by rw [recogniser]; exact discard)
  rw [← hv] at ends at3 record
  have point' : v.isParty c = false := by
    rw [State.isParty, at3, at2]
    exact point
  have setting : v.setting c 0 = s.setting c 0 := calc
    v.setting c 0 = (w.orphaned c).setting c 0 := State.setting_of_onlyPair ends c 0
    _ = w.setting c 0 := State.setting_of_onlyCircuit (w.onlyCircuit_orphaned c) c 0
    _ = s.setting c 0 := State.setting_of_onlyCircuit adds c 0
  have message : (w.orphaned c).message r = s.message r :=
    (State.message_of_onlyCircuit (w.onlyCircuit_orphaned c) r).trans (State.message_of_onlyCircuit adds r)
  obtain ⟨stops, at4⟩ := enterStopped_spec c mode v
  have form : stopCircuit c kind mode s = enterStopped c mode v := by
    rw [stopCircuit_eq, ← hw, broken, ← hv, quietParty_point point']
  rw [form]
  refine ⟨State.onlyPair_trans (State.onlyPair_of_onlyCircuit r adds) (State.onlyPair_trans (l := [])
    (State.onlyPair_trans (l := []) (l' := []) (State.onlyPair_of_onlyCircuit r (w.onlyCircuit_orphaned c)) ends)
    (State.onlyPair_of_onlyCircuit r stops)), ?_, ?_⟩
  · rw [at4, at3, at2, setting]
  · rw [State.message_of_onlyCircuit stops, record, message]

/-! ### The trips, one after another -/

/-- A detection that is due trips its detector and is then handled (R14 to R16). -/
theorem exec_trip {s : State} {c : Circuit} {command : Instr} {kind : FaultKind} {due : Prop} {line : LineUnit}
    (h : (command, kind, due, line) ∈ ([
      (.openReceiveTrip c, .openReceive, (s.circuit c).line.openDetector = .armed ∧
          (s.circuit c).control.effective.openLineTime ≤ (s.circuit c).line.openCount,
        { (s.circuit c).line with openDetector := .tripped, openMarkRun := 0 }),
      (.sendLoopOpenTrip c, .sendLoopOpen, (s.circuit c).line.loopDetector = .armed ∧ 10 ≤ (s.circuit c).line.loopCount,
        { (s.circuit c).line with loopDetector := .tripped }),
      (.framingTrip c, .framing, (s.circuit c).line.framingDetector = .armed ∧ 4 ≤ (s.circuit c).line.framingCount,
        { (s.circuit c).line with framingDetector := .tripped })] : List (Instr × FaultKind × Prop × LineUnit)))
    (is : due) : exec command s = .next (detect c kind (s.setCircuit c { s.circuit c with line := line })) ∧
      line.transmitter = (s.circuit c).line.transmitter := by
  simp only [List.mem_cons, List.not_mem_nil, or_false, Prod.mk.injEq] at h
  rcases h with ⟨rfl, rfl, rfl, rfl⟩ | ⟨rfl, rfl, rfl, rfl⟩ | ⟨rfl, rfl, rfl, rfl⟩
  · exact ⟨exec_openReceiveTrip is.1 is.2, rfl⟩
  · exact ⟨exec_sendLoopOpenTrip is.1 is.2, rfl⟩
  · exact ⟨exec_framingTrip is.1 is.2, rfl⟩

end Sys2Proof.Machine

open Sys2Proof Sys2Proof.Machine

/-- Settles O17: the trip, and then the report or nothing. -/
theorem detectionUnderReportOrIgnoreDisturbsNothing : Obligations.DetectionUnderReportOrIgnoreDisturbsNothing := by
  unfold Obligations.DetectionUnderReportOrIgnoreDisturbsNothing
  refine ⟨fun c s => ⟨fun quiet armed due => ?_, fun quiet armed due => ?_, fun quiet armed due => ?_⟩,
    fun c s checking count marks unreported mode => ?_⟩
  · exact ⟨_, exec_openReceiveTrip armed due, detect_quiet_set rfl quiet⟩
  · exact ⟨_, exec_sendLoopOpenTrip armed due, detect_quiet_set rfl quiet⟩
  · exact ⟨_, exec_framingTrip armed due, detect_quiet_set rfl quiet⟩
  · have told := detect_quiet_set (s := s) (c := c) (kind := .noLine)
      (x := { s.circuit c with control := { (s.circuit c).control with noLineReported := true } }) rfl (.inr mode)
    have seen : ¬ s.letsFall c .noLine := by simp [State.letsFall, checking]
    simp only [seen, not_false_eq_true, true_and] at told
    exact ⟨_, exec_noLine checking count marks unreported, told⟩

/-- Settles O18: the trip or the end of the check, and then the stop of the circuit. -/
theorem detectionUnderLatchedOrRetryStopsTheCircuit : Obligations.DetectionUnderLatchedOrRetryStopsTheCircuit := by
  unfold Obligations.DetectionUnderLatchedOrRetryStopsTheCircuit
  refine ⟨fun c s mode inForce stops => ?_, fun c s checking count marks unreported idle point hunts mode inForce stops => ?_⟩
  · intro x trips stopped faulted command kind due line listed is
    obtain ⟨runs, transmitter⟩ := exec_trip listed is
    obtain ⟨u, hu⟩ : ∃ u, u = s.setCircuit c { s.circuit c with line := line } := ⟨_, rfl⟩
    have at' : u.circuit c = { s.circuit c with line := line } := hu ▸ s.circuit_setCircuit_self c _
    have trip : s.onlyCircuit u c [] := hu ▸ s.onlyCircuit_setCircuit c _
    have inForce' : faultModeOf (u.setting c 0) = mode := by rw [State.setting_of_onlyCircuit trip, inForce]
    rw [← hu] at runs
    have reports : u.faultReports c kind mode = faulted kind := by rw [State.faultReports, at']
    have detected (seen : ¬ s.letsFall c kind) := detect_latchedOrRetry (s := u) (c := c) (kind := kind)
      (by rwa [State.letsFall, at']) inForce' stops
    refine ⟨fun fault => ?_, fun stopping => ?_⟩
    · have fault' : (u.circuit c).control.state = .fault := by rw [at']; exact fault
      obtain ⟨adds, at2⟩ := addFault_spec c kind mode u
      refine ⟨_, runs.trans (congrArg _ ((detected ?_).trans (if_pos fault'))), ?_, ?_⟩
      · have fault2 : (s.circuit c).control.state = .fault := fault
        simp [State.letsFall, fault2]
      · exact reports ▸ State.onlyCircuit_trans (l := []) trip adds
      · rw [at2, at']
    · intro told halted
      have ready : (s.circuit c).control.state = .ready ∨ (s.circuit c).control.state = .held ∨
          ((s.circuit c).control.state = .checking ∧ kind ≠ .framing) := by
        rcases stopping with service | checking
        · simp only [State.inService, Bool.or_eq_true, decide_eq_true_eq] at service
          exact service.elim .inl fun e => .inr (.inl e)
        · exact .inr (.inr checking)
      have seen : ¬ s.letsFall c kind := by
        rcases ready with e | e | ⟨e, other⟩
        · simp [State.letsFall, e]
        · simp [State.letsFall, e]
        · simp [State.letsFall, e, other]
      have notFault : ¬ (u.circuit c).control.state = .fault := by
        rw [at']
        rcases ready with e | e | ⟨e, -⟩ <;> simp [e]
      have runs' : exec command s = .next (stopCircuit c kind mode u) :=
        runs.trans (congrArg _ ((detected seen).trans (if_neg notFault)))
      have setting : u.setting c 0 = s.setting c 0 := State.setting_of_onlyCircuit trip c 0
      have parties : u.isParty c = s.isParty c := by rw [State.isParty, at', State.isParty]
      have recogniser : u.recogniser c = s.recogniser c := by rw [State.recogniser, at', State.recogniser]
      have halts : ((u.circuit c).faulted kind).stoppedBy mode (retryTicksOf (u.setting c 0)) = halted := by
        rw [at', setting]
        simp only [CircuitState.faulted, CircuitState.stoppedBy, transmitter]
        rfl
      refine ⟨fun idle hunts => ?_, fun r k d point hunts active delivery own noOrder cause alone => ?_,
        fun r point idle receives filling discard => ?_⟩
      · obtain ⟨only, at2⟩ := stopCircuit_idle kind mode (s := u) (by rw [at']; exact idle) (by rw [recogniser, hunts])
        refine ⟨_, runs', ?_, ?_⟩
        · have both := State.onlyCircuit_trans (l := []) trip only
          rw [reports] at both
          exact both
        · rw [at2, parties]
          split
          · rw [← halts, at']
            rfl
          · exact halts
      · intro m queue length
        obtain ⟨pair, at2, record⟩ := stopCircuit_sending kind mode (s := u) (by rw [parties, point])
          (by rw [recogniser, hunts]) (by rw [at']; exact active) ((State.delivery_of_onlyCircuit trip r k).trans delivery)
          own (by rw [at']; exact noOrder) (by rw [at']; exact cause)
          fun j other d' h => alone j other d' ((State.delivery_of_onlyCircuit trip r j).symm.trans h)
        have both := State.onlyPair_trans (State.onlyPair_of_onlyCircuit r trip) pair
        rw [reports] at both
        have message := State.message_of_onlyCircuit trip r
        refine ⟨_, runs', both.1, both.2.1, ?_, both.2.2, record.trans (by rw [message]; rfl)⟩
        rw [at2, ← halts, message, at']
        rfl
      · obtain ⟨pair, at2, record⟩ := stopCircuit_receiving kind mode (s := u) (by rw [parties, point])
          (by rw [at']; exact idle) (by rw [recogniser]; exact receives) (by rw [recogniser]; exact filling)
          (by rw [recogniser]; exact discard)
        have both := State.onlyPair_trans (State.onlyPair_of_onlyCircuit r trip) pair
        rw [reports] at both
        refine ⟨_, runs', both.1, both.2.1, ?_, both.2.2, record.trans (by rw [State.message_of_onlyCircuit trip])⟩
        have filling' : ((u.circuit c).faulted kind).recogniser.filling = some r := by rw [at']; exact filling
        rw [at2, ← halts, CircuitState.ended, filling', at']
        rfl
  · obtain ⟨u, hu⟩ : ∃ u, u = s.setCircuit c { s.circuit c with
        control := { (s.circuit c).control with noLineReported := true } } := ⟨_, rfl⟩
    have at' : u.circuit c = { s.circuit c with
        control := { (s.circuit c).control with noLineReported := true } } := hu ▸ s.circuit_setCircuit_self c _
    have change : s.onlyCircuit u c [] := hu ▸ s.onlyCircuit_setCircuit c _
    have setting : u.setting c 0 = s.setting c 0 := State.setting_of_onlyCircuit change c 0
    obtain ⟨only, at2⟩ := stopCircuit_idle (s := u) (c := c) .noLine mode (by rw [at', idle])
      (by rw [State.recogniser, at']; exact hunts)
    have runs : exec (.noLine c) s = .next (stopCircuit c .noLine mode u) := by
      rw [exec_noLine checking count marks unreported, ← hu,
        detect_latchedOrRetry (by simp [State.letsFall, at', checking]) (by rw [setting, inForce]) stops,
        if_neg (by simp [at', checking])]
    refine ⟨_, runs, ?_, ?_⟩
    · have both := State.onlyCircuit_trans (l := []) change only
      rw [State.faultReports, at'] at both
      exact both
    · have party : u.isParty c = false := by rw [State.isParty, at']; exact point
      rw [at2, party, at', setting]
      rfl

end

section
/-! SUPPORT. What a completed character leaves alone: the shadows, the effective settings of every circuit, and every
line unit, but for the speed and stop length of a transmitter that compares (R7, R11). One lemma for each operation
that a character can lead to, in the order of the model. -/

namespace Sys2Proof.Machine

/-- The receiver has taken the speed of word 1, and an invalid code has been held (R11, R12). -/
def LineUnit.settled (l : LineUnit) (word : Word) : Prop :=
  (speedOf word).getD l.rxSpeed = l.rxSpeed ∧ (speedSettingInvalid word = true → l.settingHeld = true)

/-- The line unit but for what a transmitter's comparison copies. -/
def LineUnit.kept (l l' : LineUnit) : Prop := l' = { l with txSpeed := l'.txSpeed, txStop := l'.txStop }

/-- From s₀ to s the shadows, the effective settings and, where the receivers have compared, the line units stand. -/
def KeepsLines (s₀ s : State) : Prop :=
  s.shadow = s₀.shadow ∧ ∀ c, (s.circuit c).control.effective = (s₀.circuit c).control.effective ∧
    ((s₀.circuit c).line.settled (s₀.setting c 1) → (s₀.circuit c).line.kept (s.circuit c).line)

theorem LineUnit.kept_refl (l : LineUnit) : l.kept l := rfl

theorem LineUnit.kept_trans {l l' l'' : LineUnit} (h : l.kept l') (h' : l'.kept l'') : l.kept l'' := by
  unfold LineUnit.kept at h h' ⊢
  rw [h', h]

theorem LineUnit.settled_of_kept {l l' : LineUnit} {word : Word} (h : l.kept l') (settled : l.settled word) :
    l'.settled word := by
  unfold LineUnit.kept at h
  rw [h]
  exact settled

namespace KeepsLines

variable {s₀ s t : State} {c : Circuit} {r : RecordIdx}

theorem refl : KeepsLines s s := ⟨rfl, fun _ => ⟨rfl, fun _ => LineUnit.kept_refl _⟩⟩

theorem trans (k : KeepsLines s₀ s) (h : KeepsLines s t) : KeepsLines s₀ t := by
  refine ⟨h.1.trans k.1, fun c => ⟨(h.2 c).1.trans (k.2 c).1, fun settled => ?_⟩⟩
  have first := (k.2 c).2 settled
  have settled' : (s.circuit c).line.settled (s.setting c 1) := by
    rw [State.setting_congr k.1]
    exact LineUnit.settled_of_kept first settled
  exact LineUnit.kept_trans first ((h.2 c).2 settled')

/-- A change that leaves the circuits and the shadows. -/
theorem same (k : KeepsLines s₀ s) (circuits : t.circuits = s.circuits := by rfl) (shadow : t.shadow = s.shadow := by rfl) :
    KeepsLines s₀ t := by
  refine ⟨shadow.trans k.1, fun d => ?_⟩
  rw [State.circuit_congr circuits]
  exact k.2 d

/-- A change of one circuit's line unit that is a transmitter's comparison, its effective settings as they were. -/
theorem line {x : CircuitState} (k : KeepsLines s₀ s) (effective : x.control.effective = (s.circuit c).control.effective)
    (kept : (s.circuit c).line.settled (s.setting c 1) → (s.circuit c).line.kept x.line) :
    KeepsLines s₀ (s.setCircuit c x) := by
  refine k.trans ⟨rfl, fun d => ?_⟩
  by_cases e : d = c
  · subst e
    rw [State.circuit_setCircuit_self]
    exact ⟨effective, kept⟩
  · rw [State.circuit_setCircuit_ne _ _ e]
    exact ⟨rfl, fun _ => LineUnit.kept_refl _⟩

/-- A change of one circuit that leaves its line unit and its effective settings. -/
theorem upd {f : CircuitState → CircuitState} (k : KeepsLines s₀ s)
    (hl : ∀ x, (f x).line = x.line := by exact fun _ => rfl)
    (he : ∀ x, (f x).control.effective = x.control.effective := by exact fun _ => rfl) :
    KeepsLines s₀ (s.updCircuit c f) := k.line (he _) fun _ => by rw [hl]; exact LineUnit.kept_refl _

theorem updRecogniser {f : Recogniser → Recogniser} (k : KeepsLines s₀ s) : KeepsLines s₀ (s.updRecogniser c f) := k.upd

theorem updFifo {f : List FifoItem → List FifoItem} (k : KeepsLines s₀ s) : KeepsLines s₀ (s.updFifo c f) := k.upd

theorem updSend {f : SendController → SendController} (k : KeepsLines s₀ s) : KeepsLines s₀ (s.updSend c f) := k.upd

theorem updDialogue {f : Dialogue → Dialogue} (k : KeepsLines s₀ s) : KeepsLines s₀ (s.updDialogue c f) := k.upd

theorem updStation {t : StationIdx} {f : Station → Station} (k : KeepsLines s₀ s) :
    KeepsLines s₀ (s.updStation c t f) := k.upd

theorem updQueue {p : Precedence} {f : Queue → Queue} (k : KeepsLines s₀ s) : KeepsLines s₀ (s.updQueue c p f) := k.upd

theorem updMessage {f : Message → Message} (k : KeepsLines s₀ s) : KeepsLines s₀ (s.updMessage r f) := k.same

theorem updFlags {f : MessageFlags → MessageFlags} (k : KeepsLines s₀ s) : KeepsLines s₀ (s.updFlags r f) := k.same

theorem updSlot {j : SlotIdx} {f : Option Delivery → Option Delivery} (k : KeepsLines s₀ s) :
    KeepsLines s₀ (s.updSlot r j f) := k.same

theorem setFill {f : Fill} (k : KeepsLines s₀ s) : KeepsLines s₀ (s.setFill r f) := k.same

theorem setPool (k : KeepsLines s₀ s) (p : Pool) : KeepsLines s₀ (s.setPool p) := k.same

theorem pool (k : KeepsLines s₀ s) (p : Pool) : KeepsLines s₀ { s with pool := p } := k.same

theorem rehome (k : KeepsLines s₀ s) (q : RecordIdx) (o : Owner) : KeepsLines s₀ (s.rehome q o) := k.same

theorem writer (k : KeepsLines s₀ s) (w : BlockWriter) : KeepsLines s₀ { s with writer := w } := k.same

theorem raise {p : Place} {g : Word} {e : ReportKind} (k : KeepsLines s₀ s) : KeepsLines s₀ (s.raise p g e) :=
  k.same (by simp) (by simp)

/-- A fold of such changes is one. -/
theorem foldl {α : Type} {f : State → α → State} (k : KeepsLines s₀ s) (l : List α)
    (h : ∀ s a, KeepsLines s₀ s → KeepsLines s₀ (f s a)) : KeepsLines s₀ (l.foldl f s) := by
  induction l generalizing s with
  | nil => exact k
  | cons a l ih => exact ih (h s a k)

theorem ite {p : Prop} [Decidable p] {t : State} (h : p → KeepsLines s₀ s) (h' : ¬ p → KeepsLines s₀ t) :
    KeepsLines s₀ (if p then s else t) := by
  split
  · exact h ‹_›
  · exact h' ‹_›

/-! ### The comparison and the change of state -/

theorem compareSpeed {rx tx : Bool} (k : KeepsLines s₀ s) : KeepsLines s₀ (compareSpeed rx tx c s) := by
  obtain ⟨⟨form, others⟩, at'⟩ := compareSpeed_spec rx tx c s
  refine k.trans ⟨by rw [form], fun d => ?_⟩
  by_cases e : d = c
  · subst e
    rw [at']
    refine ⟨rfl, fun ⟨speed, held⟩ => ?_⟩
    have noReport : s.raisesHeld d = false := by
      cases invalid : speedSettingInvalid (s.setting d 1) with
      | false => simp [State.raisesHeld, invalid]
      | true => simp [State.raisesHeld, held invalid]
    split
    · simp [LineUnit.kept, LineUnit.copied, noReport, speed]
    · exact LineUnit.kept_refl _
  · rw [(others d e).1]
    exact ⟨rfl, fun _ => LineUnit.kept_refl _⟩

theorem setMode {mode : CircuitMode} {cause : StateCause} (k : KeepsLines s₀ s) : KeepsLines s₀ (setMode c mode cause s) := by
  unfold Machine.setMode compareAtRest
  exact compareSpeed (raise (upd k))

theorem transmissionEnded (k : KeepsLines s₀ s) : KeepsLines s₀ (transmissionEnded c s) :=
  ite (fun _ => setMode (upd k)) fun _ => k

/-! ### The send side and the schedulers -/

theorem endSend (k : KeepsLines s₀ s) : KeepsLines s₀ (endSend c s) := k.updSend

theorem assignChannel {d : Delivery} (k : KeepsLines s₀ s) : KeepsLines s₀ (assignChannel c d s).2 := by
  unfold Machine.assignChannel
  split
  · split
    · exact k
    · exact updStation (f := fun t => { t with outgoing := nextChannel t.outgoing }) k
  · exact upd (f := fun x => { x with outgoing := nextChannel x.outgoing }) k

theorem startTransmission {e : QueueEntry} (k : KeepsLines s₀ s) : KeepsLines s₀ (startTransmission c e s) := by
  unfold Machine.startTransmission
  split
  · exact k
  · exact updSend (updSlot (assignChannel (updQueue k)))

theorem absorb {j : SlotIdx} {d : Delivery} (k : KeepsLines s₀ s) : KeepsLines s₀ (absorb r j d s).2.2 := by
  unfold Machine.absorb
  split
  · exact k
  · split
    · exact k
    · exact updSlot (f := fun _ => none) (updQueue k)

theorem returnDelivery {keep : Bool} (k : KeepsLines s₀ s) : KeepsLines s₀ (returnDelivery c keep s) := by
  unfold Machine.returnDelivery
  split
  · exact k
  · split
    · exact endSend k
    · exact endSend (updQueue (updSlot (absorb k)))

theorem judgePoint (k : KeepsLines s₀ s) : KeepsLines s₀ (judgePoint c s) := by
  unfold Machine.judgePoint
  split
  · split
    · exact k.startTransmission
    · exact k
  · exact k

theorem selectFor {e : QueueEntry} (k : KeepsLines s₀ s) : KeepsLines s₀ (selectFor c e s) := by
  unfold Machine.selectFor
  split
  · exact k.updDialogue
  · exact k

theorem pollStation {t : StationIdx} (k : KeepsLines s₀ s) : KeepsLines s₀ (pollStation c t s) := by
  unfold Machine.pollStation
  exact k.updDialogue

theorem judgeParty (k : KeepsLines s₀ s) : KeepsLines s₀ (judgeParty c s) := by
  unfold Machine.judgeParty
  dsimp only
  split
  · split <;> first | exact k | exact k.selectFor | exact k.pollStation
  · exact k

theorem judge (k : KeepsLines s₀ s) : KeepsLines s₀ (judge c s) :=
  ite (fun _ => k.judgeParty) fun _ => k.judgePoint

/-! ### The pool and the message table -/

theorem judgeSuspension (k : KeepsLines s₀ s) : KeepsLines s₀ (judgeSuspension s) := by
  have p : KeepsLines s₀ { s with pool := { s.pool with suspension := s.suspendedNow } } := k.pool _
  exact ite (fun _ => p.foldl _ fun _ _ k => ite (fun _ => k.judgeParty) fun _ => k) fun _ => p

theorem takeRequest (k : KeepsLines s₀ s) : KeepsLines s₀ (takeRequest s) := by
  unfold Machine.takeRequest
  split
  · exact ite (fun _ => k.pool _) fun _ => k
  · exact k

theorem poolChanged (k : KeepsLines s₀ s) : KeepsLines s₀ (poolChanged s) := k.takeRequest.judgeSuspension

theorem returnChain (k : KeepsLines s₀ s) : KeepsLines s₀ (returnChain r s) := by
  unfold Machine.returnChain
  dsimp only
  split
  · exact k
  · exact (k.rehome _ _).setPool _

theorem grantRecord {state : RecordState} {origin : Origin} (k : KeepsLines s₀ s) :
    KeepsLines s₀ (grantRecord r state origin s) := k.updMessage.judgeSuspension

theorem becomeFree (k : KeepsLines s₀ s) : KeepsLines s₀ (becomeFree r s) := k.updMessage

theorem freeRecord (k : KeepsLines s₀ s) : KeepsLines s₀ (freeRecord r s) :=
  k.returnChain.raise.becomeFree.poolChanged

theorem freeCancelled (k : KeepsLines s₀ s) : KeepsLines s₀ (freeCancelled r s) :=
  k.returnChain.raise.setFill.becomeFree.poolChanged

theorem settle (k : KeepsLines s₀ s) : KeepsLines s₀ (settle r s) := by
  have d : KeepsLines s₀ (if (s.message r).state = .routed && !(s.message r).hasPending then
      s.updMessage r fun m => { m with state := .done } else s) := ite (fun _ => k.updMessage) fun _ => k
  exact ite (fun _ => d.freeRecord) fun _ => d

theorem cancelFilling (k : KeepsLines s₀ s) : KeepsLines s₀ (cancelFilling c r s) :=
  ite (fun _ => setFill (writer (updFifo k) _)) fun _ => freeCancelled (writer (updFifo k) _)

/-! ### The dialogue -/

theorem enterQuiet (k : KeepsLines s₀ s) : KeepsLines s₀ (enterQuiet c s) := k.updDialogue

theorem quietAndJudge (k : KeepsLines s₀ s) : KeepsLines s₀ (quietAndJudge c s) := k.enterQuiet.judge

theorem stationFailed {t : StationIdx} (k : KeepsLines s₀ s) : KeepsLines s₀ (stationFailed c t s) :=
  ite (fun _ => raise k.updStation) fun _ => k.updStation

theorem stationGood {t : StationIdx} (k : KeepsLines s₀ s) : KeepsLines s₀ (stationGood c t s) := k.updStation

theorem stationAnswers {t : StationIdx} (k : KeepsLines s₀ s) : KeepsLines s₀ (stationAnswers c t s) :=
  ite (fun _ => k.updStation) fun _ => raise k.updStation

theorem failedAttempt (k : KeepsLines s₀ s) : KeepsLines s₀ (failedAttempt c s) := by
  unfold Machine.failedAttempt
  extract_lets d s₁ s₂ s₃
  have k₁ : KeepsLines s₀ s₁ := k.updDialogue
  have k₂ : KeepsLines s₀ s₂ := ite (fun _ => k₁.returnDelivery.transmissionEnded) fun _ => k₁
  have k₃ : KeepsLines s₀ s₃ := by
    unfold s₃
    split
    · exact k₂.stationFailed
    · exact k₂
  exact k₃.quietAndJudge

theorem dialogueEnding {cause : EndCause} {clean : Bool} (k : KeepsLines s₀ s) :
    KeepsLines s₀ (dialogueEnding c cause clean s) := by
  unfold Machine.dialogueEnding
  split
  · split
    · exact k.updDialogue
    · exact k
    · exact k.quietAndJudge
    · exact k.failedAttempt
    · exact k
  · exact k

/-! ### The recogniser -/

theorem startMessage (k : KeepsLines s₀ s) : KeepsLines s₀ (startMessage c s) := by
  unfold Machine.startMessage
  dsimp only
  split
  · exact updRecogniser k.grantRecord
  · exact k.updRecogniser

theorem discardEnd (k : KeepsLines s₀ s) : KeepsLines s₀ (discardEnd c s) := by
  unfold Machine.discardEnd
  dsimp only
  refine updRecogniser ?_
  split <;> first | exact k.raise | exact k

/-- The part of an ending that the recogniser does before the dialogue is told. -/
theorem ending {r? : Option RecordIdx} {cause : EndCause} {lineStart : Bool} (k : KeepsLines s₀ s) :
    KeepsLines s₀ ((match r? with
      | some r => s.updFifo c fun fifo => fifo ++ [FifoItem.ending r cause]
      | none => s).updRecogniser c fun q =>
        { q with state := .hunt, lineStart := lineStart, held := [], somCount := 0, filling := none }) := by
  refine updRecogniser ?_
  split
  · exact k.updFifo
  · exact k

theorem endMessage {cause : EndCause} {lineStart : Bool} (k : KeepsLines s₀ s) :
    KeepsLines s₀ (endMessage c cause lineStart s) := k.discardEnd.ending.dialogueEnding

theorem patternEom (k : KeepsLines s₀ s) : KeepsLines s₀ (patternEom c s) := by
  unfold Machine.patternEom
  dsimp only
  refine endMessage ?_
  split
  · exact k.updFlags
  · exact k

theorem patternCancel (k : KeepsLines s₀ s) : KeepsLines s₀ (patternCancel c s) := by
  unfold Machine.patternCancel
  extract_lets s₁ filling s₂ s₃
  have k₂ : KeepsLines s₀ s₂ := updRecogniser k.discardEnd
  have k₃ : KeepsLines s₀ s₃ := by
    unfold s₃ filling
    split
    · exact k₂.cancelFilling
    · exact k₂
  exact k₃.dialogueEnding

theorem patternSom (k : KeepsLines s₀ s) : KeepsLines s₀ (patternSom c s) := k.endMessage.startMessage

theorem huntChar {ch : RxChar} (k : KeepsLines s₀ s) : KeepsLines s₀ (huntChar c ch s) := by
  unfold Machine.huntChar
  dsimp only
  split
  · exact k.updRecogniser
  · split
    · exact k
    · split
      · split
        · exact startMessage k.updRecogniser
        · exact k.updRecogniser
      · exact k.updRecogniser

theorem setExpected {e : Option Nat} (k : KeepsLines s₀ s) : KeepsLines s₀ (setExpected c e s) := by
  unfold Machine.setExpected
  split
  · exact k.updStation
  · exact k.updRecogniser

theorem takeNumber {n : Nat} (k : KeepsLines s₀ s) : KeepsLines s₀ (takeNumber c r n s) := by
  unfold Machine.takeNumber
  extract_lets result t
  have h : KeepsLines s₀ t := setExpected k.updMessage
  split
  · exact h
  · exact h.updFlags
  · exact h.raise

theorem headingChar {ch : RxChar} (k : KeepsLines s₀ s) : KeepsLines s₀ (headingChar c ch s) := by
  unfold Machine.headingChar
  dsimp only
  split
  · exact k
  · split
    · unfold applyHead
      dsimp only
      split
      · exact k.updRecogniser
      · exact updRecogniser k.takeNumber
      · exact updRecogniser k.updMessage
      · exact updRecogniser k.updMessage
      · exact k.updRecogniser
      · exact updRecogniser k.updFlags
    · exact k

theorem destChar {ch : RxChar} (k : KeepsLines s₀ s) : KeepsLines s₀ (destChar c ch s) := by
  unfold Machine.destChar
  dsimp only
  split
  · exact k
  · split
    · exact k
    · split
      · exact updRecogniser k.updMessage
      · split
        · exact updRecogniser (ite (fun _ => updFlags k.updMessage) fun _ => k.updMessage)
        · exact k.updRecogniser

theorem dropOne (k : KeepsLines s₀ s) : KeepsLines s₀ (dropOne c s) := k.updRecogniser

theorem offerText {ch : RxChar} (k : KeepsLines s₀ s) : KeepsLines s₀ (offerText c ch s) := by
  unfold Machine.offerText
  split
  · exact k
  · split
    · extract_lets t
      have h : KeepsLines s₀ t := updMessage k.updFifo
      exact ite (fun _ => updRecogniser h.updFlags) fun _ => h
    · exact updRecogniser k.updFlags

theorem ordinaryChar {counted : Bool} {ch : RxChar} (k : KeepsLines s₀ s) :
    KeepsLines s₀ (ordinaryChar c counted ch s) := by
  unfold Machine.ordinaryChar
  dsimp only
  split
  · exact k.destChar
  · exact ite (fun _ => updRecogniser k.offerText) fun _ => k.offerText
  · exact ite (fun _ => k.updRecogniser) fun _ => k
  · have d : KeepsLines s₀ (if counted = true then s else Machine.dropOne c s) := ite (fun _ => k) fun _ => k.dropOne
    exact ite (fun _ => d.updRecogniser) fun _ => d
  · exact k
  · exact k

theorem releaseHeld {counted : Bool} (k : KeepsLines s₀ s) : KeepsLines s₀ (releaseHeld c counted s) := by
  unfold Machine.releaseHeld
  exact foldl k.updRecogniser _ fun _ _ k => k.ordinaryChar

theorem breakPattern {counted : Bool} {ch : RxChar} (k : KeepsLines s₀ s) :
    KeepsLines s₀ (breakPattern c counted ch s) := ordinaryChar (updRecogniser k.releaseHeld)

theorem patternDone {letter : RelayChar} (k : KeepsLines s₀ s) : KeepsLines s₀ (patternDone c letter s) :=
  ite (fun _ => patternEom k.updRecogniser) fun _ =>
    ite (fun _ => patternCancel k.updRecogniser) fun _ => patternSom k.updRecogniser

theorem watchChar {counted : Bool} {ch : RxChar} (k : KeepsLines s₀ s) :
    KeepsLines s₀ (watchChar c counted ch s) := by
  unfold Machine.watchChar
  dsimp only
  split
  · split
    · exact k.updRecogniser
    · exact k.patternDone
    · exact k.breakPattern
  · exact k.ordinaryChar

theorem countMutilated {mutilated : Bool} (k : KeepsLines s₀ s) : KeepsLines s₀ (countMutilated c mutilated s) := by
  unfold Machine.countMutilated
  split
  · exact k.updMessage
  · exact k

theorem recogniserChar {value : RelayChar} {mutilated : Bool} (k : KeepsLines s₀ s) :
    KeepsLines s₀ (recogniserChar c value mutilated s) := by
  unfold Machine.recogniserChar
  extract_lets shift ch load t
  have h : KeepsLines s₀ t := countMutilated k.updRecogniser
  split
  · exact h.huntChar
  · exact h.headingChar
  · exact h.watchChar
  · exact h.watchChar
  · exact h.watchChar
  · exact h.dropOne.watchChar

/-! ### Answers, and the completed character -/

theorem afterTransmission (k : KeepsLines s₀ s) : KeepsLines s₀ (afterTransmission c s) :=
  ite (fun _ => k.transmissionEnded.quietAndJudge) fun _ => k.transmissionEnded.judgePoint

theorem endActive {j : SlotIdx} {state : DeliveryState} (k : KeepsLines s₀ s) :
    KeepsLines s₀ (endActive c r j state s) := endSend k.updSlot

theorem deliverActive (k : KeepsLines s₀ s) : KeepsLines s₀ (deliverActive c s) := by
  unfold Machine.deliverActive
  dsimp only
  split
  · exact k
  · split
    · exact k.endSend
    · exact k.endActive.raise.settle

theorem cancelActive (k : KeepsLines s₀ s) : KeepsLines s₀ (cancelActive c s) := by
  unfold Machine.cancelActive
  split
  · exact k
  · exact k.endActive.settle

theorem goodAnswer {t : StationIdx} (k : KeepsLines s₀ s) : KeepsLines s₀ (goodAnswer c t s) := by
  unfold Machine.goodAnswer
  extract_lets u
  have h : KeepsLines s₀ u := updDialogue k.stationGood
  split
  · exact updDialogue h.startTransmission
  · exact h.quietAndJudge

theorem answerChar {t : StationIdx} {ch : RxChar} (k : KeepsLines s₀ s) :
    KeepsLines s₀ (answerChar c t ch s) :=
  ite (fun _ => ite (fun _ => k.updDialogue) fun _ => k.failedAttempt)
    fun _ => ite (fun _ => k.goodAnswer) fun _ => k.failedAttempt

theorem receiptChar {t : StationIdx} {ch : RxChar} (k : KeepsLines s₀ s) :
    KeepsLines s₀ (receiptChar c t ch s) :=
  ite (fun _ => k.failedAttempt) fun _ => ite (fun _ => k.updDialogue)
    fun _ => afterTransmission (deliverActive (updDialogue k.stationGood))

theorem pollChar {t : StationIdx} {ch : RxChar} (k : KeepsLines s₀ s) :
    KeepsLines s₀ (pollChar c t ch s) := by
  unfold Machine.pollChar
  dsimp only
  split
  · exact ite (fun _ => k.updDialogue) fun _ => ite (fun _ => k.updDialogue) fun _ => k.failedAttempt
  · exact ite (fun _ => k.stationAnswers.quietAndJudge) fun _ => k.failedAttempt
  · exact ite (fun _ => k.failedAttempt) fun _ => ite (fun _ => k.updDialogue)
      fun _ => startMessage (updRecogniser (updDialogue k.stationAnswers))

theorem awaitedChar {value : RelayChar} {mutilated : Bool} (k : KeepsLines s₀ s) :
    KeepsLines s₀ (awaitedChar c value mutilated s) := by
  unfold Machine.awaitedChar
  extract_lets d shift ch t
  have h : KeepsLines s₀ t := k.updDialogue
  split
  · exact h.answerChar
  · exact h.receiptChar
  · exact h.pollChar
  · exact h

theorem dialogueChar {value : RelayChar} {mutilated : Bool} (k : KeepsLines s₀ s) :
    KeepsLines s₀ (dialogueChar c value mutilated s) := by
  unfold Machine.dialogueChar
  split <;> first
    | exact k.awaitedChar
    | exact ite (fun _ => updDialogue k.recogniserChar) fun _ => k.recogniserChar
    | exact k

theorem handOn {value : RelayChar} {mutilated : Bool} (k : KeepsLines s₀ s) :
    KeepsLines s₀ (handOn c value mutilated s) :=
  ite (fun _ => ite (fun _ => k.dialogueChar) fun _ => k.recogniserChar) fun _ => k

end KeepsLines

end Sys2Proof.Machine
end

section
/-! PROOF. A stop sample in the line unit (R5 to R7, R11, R16). -/

namespace Sys2Proof.Machine

/-- The line unit after a stop sample (R5, R6, R16). -/
theorem LineUnit.stopSample_eq (l : LineUnit) (mark : Bool) : l.stopSample mark = { l with
    receiver := .hunting, rxTicksDue := l.rxTicksDue - 1, receiveIn := mark
    openMarkRun := (l.markRun mark).openMarkRun
    framingErrors := if mark then l.framingErrors else min (l.framingErrors + 1) 65535
    framingCount := if l.framingTripDue then l.framingCount
      else if mark then 0 else min (l.framingCount + 1) 4
    framingDetector := if mark && !l.framingTripDue then .armed else l.framingDetector } := by
  simp only [LineUnit.stopSample, LineUnit.takeReceiveTick, LineUnit.markRun_eq, LineUnit.watchFraming,
    LineUnit.framingTripDue]
  cases mark <;> simp only [Bool.not_true, Bool.not_false, Bool.false_eq_true, if_false, if_true, Bool.true_and,
    Bool.false_and] <;> split <;> simp_all

/-- The state in which a completed character is handed on (R5 to R7, R11). -/
def State.sampled (s : State) (c : Circuit) (mark : Bool) : State :=
  compareSpeed true false c (s.updLine c fun l => l.stopSample mark)

theorem characterReceived_eq {s : State} {c : Circuit} {mark : Bool} {k : Nat} {bits : RelayChar}
    (receiver : (s.circuit c).line.receiver = .assembling k bits) (due : 95 ≤ k) :
    characterReceived c mark s = handOn c (if mark then bits else chBlank) (!mark) (s.sampled c mark) := by
  unfold characterReceived
  rw [receiver]
  exact if_pos due

theorem State.sampled_spec (s : State) (c : Circuit) (mark : Bool) :
    s.onlyCircuit (s.sampled c mark) c (if s.raisesHeld c then [(.circuit c none, 0, .settingHeld)] else []) ∧
    (s.sampled c mark).circuit c = { s.circuit c with
      line := { (s.circuit c).line.stopSample mark with
        rxSpeed := if s.inService c then (speedOf (s.setting c 1)).getD (s.circuit c).line.rxSpeed
          else (s.circuit c).line.rxSpeed
        settingHeld := (s.circuit c).line.settingHeld || s.raisesHeld c } } := by
  obtain ⟨w, hw⟩ : ∃ w, w = s.updLine c fun l => l.stopSample mark := ⟨_, rfl⟩
  have at' : w.circuit c = { s.circuit c with line := (s.circuit c).line.stopSample mark } := by
    rw [hw]
    exact s.circuit_setCircuit_self c _
  have change : s.onlyCircuit w c [] := hw ▸ s.onlyCircuit_setCircuit c _
  have service : w.inService c = s.inService c := by rw [State.inService, at', State.inService]
  have word : w.setting c 1 = s.setting c 1 := State.setting_of_onlyCircuit change c 1
  have raises : w.raisesHeld c = s.raisesHeld c := by
    rw [State.raisesHeld, service, word, at', LineUnit.stopSample_eq, State.raisesHeld]
  obtain ⟨compares, line⟩ := compareSpeed_spec true false c w
  rw [raises] at compares line
  have form : s.sampled c mark = compareSpeed true false c w := by rw [hw, State.sampled]
  rw [form, line, service, word, at']
  refine ⟨by simpa using State.onlyCircuit_trans change compares, ?_⟩
  cases inService : s.inService c with
  | true => simp [LineUnit.copied, LineUnit.stopSample_eq]
  | false => simp [LineUnit.stopSample_eq, State.raisesHeld, inService]

end Sys2Proof.Machine

open Sys2Proof Sys2Proof.Machine

/-- Settles O13: the stop sample, the receiver's comparison, and what the character leaves of the line unit. -/
theorem characterOutOfServiceIsDiscarded : Obligations.CharacterOutOfServiceIsDiscarded := by
  unfold Obligations.CharacterOutOfServiceIsDiscarded
  refine ⟨fun c mark s k bits receiver due out => ?_, fun c mark s k bits receiver due => ?_⟩
  · have spec := s.sampled_spec c mark
    have quiet : s.raisesHeld c = false := by simp [State.raisesHeld, out]
    have out' : (s.sampled c mark).inService c = false := by
      rw [State.inService, spec.2]
      exact out
    have stays : handOn c (if mark then bits else chBlank) (!mark) (s.sampled c mark) = s.sampled c mark :=
      if_neg (by simp [out'])
    rw [quiet, out] at spec
    refine ⟨_, congrArg Host.Outcome.next ((characterReceived_eq receiver due).trans stays), spec.1, ?_⟩
    rw [spec.2, LineUnit.stopSample_eq]
    simp
  · obtain ⟨only, at'⟩ := s.sampled_spec c mark
    have word : (s.sampled c mark).setting c 1 = s.setting c 1 := State.setting_of_onlyCircuit only c 1
    refine ⟨_, congrArg Host.Outcome.next (characterReceived_eq receiver due), ?_⟩
    have held : ((s.circuit c).line.settingHeld || s.raisesHeld c) =
        ((s.circuit c).line.settingHeld || (s.inService c && speedSettingInvalid (s.setting c 1))) := by
      cases held : (s.circuit c).line.settingHeld <;> simp [State.raisesHeld, held]
    have service : (s.sampled c mark).inService c = s.inService c := by rw [State.inService, at', State.inService]
    have kept : ((s.sampled c mark).circuit c).line.kept
        ((handOn c (if mark then bits else chBlank) (!mark) (s.sampled c mark)).circuit c).line := by
      cases inService : s.inService c with
      | false =>
        have stays : handOn c (if mark then bits else chBlank) (!mark) (s.sampled c mark) = s.sampled c mark :=
          if_neg (by simp [service, inService])
        rw [stays]
        exact LineUnit.kept_refl _
      | true =>
        refine ((KeepsLines.refl.handOn).2 c).2 ?_
        rw [at', word]
        refine ⟨?_, fun invalid => ?_⟩
        · rw [inService]
          cases speedOf (s.setting c 1) <;> rfl
        · simp [held, inService, invalid]
    rw [kept, at', held, LineUnit.stopSample_eq]

end

section
/-! PROOF. The send side of the line: send ticks, the characters of a transmission one after another, its ends, and
preemption (chapter 6). -/

namespace Sys2Proof.Machine

/-! ### The character taken (R8, R9) -/

/-- The circuit whose transmitter has taken what is offered. -/
def CircuitState.took (x : CircuitState) : Option (RelayChar × CharSource) → CircuitState
  | none => { x with line := { x.line with transmitter := .idle } }
  | some (char, source) => { x with
      line := { x.line with transmitter := .sending char 0 (characterTicks x.line.txStop) (some source) }
      send := { x.send with
        fifo := if source = .sendController ∧ x.send.phase = .text then x.send.fifo.tail else x.send.fifo } }

theorem takeOffered_spec (c : Circuit) (s : State) : s.onlyCircuit (takeOffered c s) c [] ∧
    (takeOffered c s).circuit c = (s.circuit c).took (s.offered c) := by
  unfold takeOffered
  cases s.offered c with
  | none => exact ⟨s.onlyCircuit_setCircuit c _, by simp [CircuitState.took]⟩
  | some offer =>
    obtain ⟨char, source⟩ := offer
    obtain ⟨w, hw⟩ : ∃ w, w = s.updLine c fun l =>
      { l with transmitter := .sending char 0 (characterTicks l.txStop) (some source) } := ⟨_, rfl⟩
    have at' : w.circuit c = { s.circuit c with line := { (s.circuit c).line with
        transmitter := .sending char 0 (characterTicks (s.circuit c).line.txStop) (some source) } } :=
      hw ▸ s.circuit_setCircuit_self c _
    have begun : s.onlyCircuit w c [] := hw ▸ s.onlyCircuit_setCircuit c _
    simp only [← hw]
    by_cases text : source = .sendController ∧ (s.circuit c).send.phase = .text
    · rw [if_pos (by simp [at', text])]
      exact ⟨begun.set _, by simp [at', CircuitState.took, text]⟩
    · rw [if_neg (by simpa [at'] using text)]
      exact ⟨begun, by rw [at', CircuitState.took, if_neg text]⟩

/-! ### What is offered, and whether a train order preempts -/

/-- What a preemption turns on, beside the circuit itself, is the records (R110). -/
theorem State.preempts_congr {s t : State} {c : Circuit} (messages : t.messages = s.messages)
    (circuit : t.circuit c = s.circuit c) : t.preempts c = s.preempts c := by
  have message (r : RecordIdx) : t.message r = s.message r := by rw [State.message, messages, State.message]
  simp only [State.preempts, State.preemptable, State.isParty, State.queue, State.entryAnswering, State.entryStation,
    State.delivery, State.station, message, circuit]

/-- The line unit does not bear on what is offered (R9). -/
theorem State.offered_of_line {s t : State} {c : Circuit} {l : LineUnit} (messages : t.messages = s.messages)
    (circuit : t.circuit c = { s.circuit c with line := l }) : t.offered c = s.offered c := by
  have message (r : RecordIdx) : t.message r = s.message r := by rw [State.message, messages, State.message]
  simp only [State.offered, State.sendOffers, State.phaseLine, State.dialogueSequence, State.isParty, State.delivery,
    State.station, message, circuit]

theorem State.preempts_of_line {s t : State} {c : Circuit} {l : LineUnit} (messages : t.messages = s.messages)
    (circuit : t.circuit c = { s.circuit c with line := l }) : t.preempts c = s.preempts c := by
  have same : t.circuit c = (s.setCircuit c { s.circuit c with line := l }).circuit c := by
    rw [circuit, s.circuit_setCircuit_self]
  rw [State.preempts_congr (s := s.setCircuit c { s.circuit c with line := l }) messages same, s.preempts_line]

/-! ### The characters of a transmission, one after another (R103 to R107) -/

/-- The send controller one character further, in a phase and at a position of it. -/
def SendController.moved (x : SendController) (phase : Phase) (position : Nat) : SendController :=
  { x with remaining := x.remaining - 1, phase := phase, position := position }

/-- Within a phase the position advances (R103, R104, R106, R107). -/
theorem sendCharLeft_within {s : State} {c : Circuit} {r : RecordIdx} {k : SlotIdx}
    (active : (s.circuit c).send.active = some (r, k)) (noCancel : (s.circuit c).send.pendingCancel = false)
    (within : ((s.circuit c).send.phase = .heading ∨ (s.circuit c).send.phase = .dest ∨
        (s.circuit c).send.phase = .trailer) ∧ (s.circuit c).send.position + 1 < (s.phaseLine c).length ∨
      (s.circuit c).send.phase = .text ∧ (s.circuit c).send.position + 1 < (s.message r).textLength) :
    s.onlyCircuit (sendCharLeft c s) c [] ∧ (sendCharLeft c s).circuit c = { s.circuit c with
      send := (s.circuit c).send.moved (s.circuit c).send.phase ((s.circuit c).send.position + 1) } := by
  have form : sendCharLeft c s = s.updSend c fun x => { x with remaining := x.remaining - 1, position := x.position + 1 } := by
    unfold sendCharLeft
    simp only [noCancel, active, Bool.false_and]
    rcases within with ⟨phase | phase | phase, more⟩ | ⟨phase, more⟩ <;> simp [phase, Nat.not_le.mpr more]
  rw [form]
  exact ⟨s.onlyCircuit_setCircuit c _, by simp [SendController.moved]⟩

/-- With the last character of a phase the next is entered (R103, R104, R106). -/
theorem sendCharLeft_enters {s : State} {c : Circuit} {r : RecordIdx} {k : SlotIdx} {next : Phase}
    (active : (s.circuit c).send.active = some (r, k)) (noCancel : (s.circuit c).send.pendingCancel = false)
    (enters : (s.circuit c).send.phase = .heading ∧ (s.phaseLine c).length = (s.circuit c).send.position + 1 ∧ next = .dest ∨
      (s.circuit c).send.phase = .dest ∧ (s.phaseLine c).length = (s.circuit c).send.position + 1 ∧
        next = (if (s.message r).textLength = 0 then .trailer else .text) ∨
      (s.circuit c).send.phase = .text ∧ (s.message r).textLength = (s.circuit c).send.position + 1 ∧ next = .trailer) :
    s.onlyCircuit (sendCharLeft c s) c [] ∧ (sendCharLeft c s).circuit c = { s.circuit c with
      send := (s.circuit c).send.moved next 0 } := by
  have form : sendCharLeft c s = enterPhase c next (s.updSend c fun x =>
      { x with remaining := x.remaining - 1, position := x.position + 1 }) := by
    unfold sendCharLeft
    simp only [noCancel, active, Bool.false_and]
    rcases enters with ⟨phase, last, rfl⟩ | ⟨phase, last, rfl⟩ | ⟨phase, last, rfl⟩ <;> simp [phase, last]
  rw [form]
  exact ⟨(s.onlyCircuit_setCircuit c _).set _, by simp [enterPhase, SendController.moved]⟩

/-- Going on within the phases before the trailer, or within the trailer, brings no preemption (R110). -/
theorem State.preempts_moved {s t : State} {c : Circuit} {l : LineUnit} {phase : Phase} {position : Nat}
    (messages : t.messages = s.messages) (circuit : t.circuit c = { s.circuit c with
      line := l, send := (s.circuit c).send.moved phase position })
    (before : phase.beforeTrailer = true → (s.circuit c).send.phase.beforeTrailer = true) (stays : s.preempts c = false) :
    t.preempts c = false := by
  have message (r : RecordIdx) : t.message r = s.message r := by rw [State.message, messages, State.message]
  rw [← Bool.not_eq_true] at stays ⊢
  intro preempts
  refine stays ?_
  simp only [State.preempts, State.preemptable, State.isParty, State.queue, State.entryAnswering, State.entryStation,
    State.delivery, State.station, message, circuit, SendController.moved] at preempts ⊢
  cases active : (s.circuit c).send.active with
  | none => simp [active] at preempts
  | some e =>
    simp only [active, Bool.and_eq_true] at preempts ⊢
    obtain ⟨⟨⟨⟨⟨⟨enabled, rank⟩, phase'⟩, party⟩, hold⟩, noCancel⟩, train⟩ := preempts
    exact ⟨⟨⟨⟨⟨⟨enabled, rank⟩, before phase'⟩, party⟩, hold⟩, noCancel⟩, train⟩

/-- Outside its own sequences the dialogue leaves the line to the send controller (R119). -/
theorem State.offered_send {s : State} {c : Circuit}
    (h : s.isParty c = false ∨ (s.circuit c).dialogue.state = .delivering) :
    s.offered c = (s.sendOffers c).map fun char => (char, .sendController) := by
  unfold State.offered
  rcases h with h | h <;> rw [h]
  cases s.isParty c <;> rfl

/-- The transmitter with the send controller's next character, or at rest. -/
def nextTransmitter (stop : Fin 3) : Option RelayChar → Transmitter
  | some char => .sending char 0 (characterTicks stop) (some .sendController)
  | none => .idle

/-- A boundary after which the transmission goes on: the next character goes out at the speed then in force (R8 to R11). -/
theorem boundary_goes {s : State} {c : Circuit} {char : RelayChar} {tick total : Nat} {phase : Phase} {position : Nat}
    {next : Option RelayChar}
    (sending : (s.circuit c).line.transmitter = .sending char tick total (some .sendController)) (due : total ≤ tick + 1)
    (stays : s.preempts c = false) (offering : s.isParty c = false ∨ (s.circuit c).dialogue.state = .delivering)
    (service : s.inService c = true) (valid : speedSettingInvalid (s.setting c 1) = false)
    (left : (s.atBoundary c).onlyCircuit (sendCharLeft c (s.atBoundary c)) c [] ∧
      (sendCharLeft c (s.atBoundary c)).circuit c = { s.circuit c with
        line := { (s.circuit c).line with transmitter := .idle, txTicksDue := (s.circuit c).line.txTicksDue - 1 }
        send := (s.circuit c).send.moved phase position })
    (before : phase.beforeTrailer = true → (s.circuit c).send.phase.beforeTrailer = true)
    (offers : ∀ u : State, u.messages = s.messages → (u.circuit c).send = (s.circuit c).send.moved phase position →
      u.sendOffers c = next) :
    ∃ t, exec (.characterBoundary c) s = .next t ∧ s.onlyCircuit t c [] ∧
    t.circuit c = { s.circuit c with
      send := { (s.circuit c).send.moved phase position with
        fifo := if phase = .text then (s.circuit c).send.fifo.tail else (s.circuit c).send.fifo }
      line := { (s.circuit c).line with
        txTicksDue := (s.circuit c).line.txTicksDue - 1
        txSpeed := (speedOf (s.setting c 1)).getD (s.circuit c).line.txSpeed
        txStop := (stopOf (s.setting c 1)).getD (s.circuit c).line.txStop
        transmitter := nextTransmitter ((stopOf (s.setting c 1)).getD (s.circuit c).line.txStop) next } } := by
  obtain ⟨only, at'⟩ := left
  obtain ⟨u, hu⟩ : ∃ u, u = sendCharLeft c (s.atBoundary c) := ⟨_, rfl⟩
  rw [← hu] at at'
  rw [← hu] at only
  have change : s.onlyCircuit u c [] := State.onlyCircuit_trans (l := []) (s.onlyCircuit_setCircuit c _) only
  have messages : u.messages = s.messages := by rw [change.1]
  have word : u.setting c 1 = s.setting c 1 := State.setting_of_onlyCircuit change c 1
  have runs : exec (.characterBoundary c) s = .next (takeOffered c (u.sendCompared c)) := by
    have told : characterBoundary c s = nextCharacter c u := by
      rw [characterBoundary_eq sending due, tellSource_sendController, ← hu]
    refine congrArg Host.Outcome.next (told.trans (nextCharacter_plain (.inl (by rw [word, valid])) ?_
      (State.preempts_moved messages at' before stays)))
    rw [State.inService, at']
    exact service
  have compared := u.circuit_sendCompared c
  have offered : (u.sendCompared c).offered c = next.map fun ch => (ch, .sendController) := by
    rw [State.offered_of_line (s := u) (t := u.sendCompared c) rfl compared, State.offered_send, offers u messages]
    · rw [at']
    · rw [State.isParty, at']
      exact offering
  obtain ⟨takes, at2⟩ := takeOffered_spec c (u.sendCompared c)
  refine ⟨_, runs, State.onlyCircuit_trans (l := []) (State.onlyCircuit_trans (l := []) change
    (u.onlyCircuit_setCircuit c _)) takes, ?_⟩
  have text : phase = .text → next = (s.circuit c).send.fifo.head? := fun isText => by
    rw [← offers u messages (by rw [at']), State.sendOffers, at']
    simp [SendController.moved, isText]
  rw [at2, offered, compared, at', word]
  cases next with
  | none =>
    have empty : phase = .text → (s.circuit c).send.fifo = [] := fun isText =>
      List.head?_eq_none_iff.mp (text isText).symm
    simp only [CircuitState.took, Option.map_none, SendController.moved]
    split
    · rw [empty ‹_›]
      rfl
    · rfl
  | some ch =>
    simp only [CircuitState.took, Option.map_some, SendController.moved, true_and, nextTransmitter]

/-! ### The lines of a message (R103, R104) -/

theorem spacedCodes_eq (codes : List Code) :
    spacedCodes codes = [(3 : RelayChar)].intercalate (codes.map fun x => [x.first, x.second]) := by
  induction codes with
  | nil => rfl
  | cons a rest ih =>
    cases rest with
    | nil => simp [spacedCodes, List.intercalate]
    | cons b rest =>
      rw [spacedCodes, ih]
      · simp [List.intercalate, chSpace]
      · simp

theorem Message.codesOf_pairs (m : Message) (codes : PositionSet) :
    (m.codesOf codes).map (fun x => [x.first, x.second]) =
      ((List.finRange 8).filter fun i => codes.getLsbD i.val).filterMap fun i =>
        match m.destinations[i.val]? with
        | some (Dest.code x) => some [x.first, x.second]
        | _ => none := by
  rw [Message.codesOf, List.map_filterMap, List.filterMap_filter]
  refine List.filterMap_congr fun i _ => ?_
  split
  · cases m.destinations[i.val]? with
    | none => rfl
    | some dest => cases dest <;> rfl
  · rfl

/-! ### What each phase offers -/

theorem State.sendOffers_text {s : State} {c : Circuit} (phase : (s.circuit c).send.phase = .text) :
    s.sendOffers c = (s.circuit c).send.fifo.head? := by simp [State.sendOffers, phase]

/-- The characters of a phase of the transmission of delivery d of record r. -/
def State.lineFor (s : State) (c : Circuit) (r : RecordIdx) (d : Delivery) : Phase → List RelayChar
  | .heading => headingLine ((s.circuit c).send.channel.getD 0) (s.message r).rank ((s.message r).originCode.getD ⟨0, 0⟩)
  | .dest => destinationLine (s.message r) d.codes
  | .trailer => trailerLine
  | .cancel => cancelLine
  | .idle | .text | .receipt => []

theorem State.phaseLine_eq {s u : State} {c : Circuit} {r : RecordIdx} {k : SlotIdx} {d : Delivery}
    (messages : u.messages = s.messages) (active : (u.circuit c).send.active = some (r, k))
    (channel : (u.circuit c).send.channel = (s.circuit c).send.channel) (at' : s.delivery r k = some d) :
    u.phaseLine c = s.lineFor c r d (u.circuit c).send.phase := by
  have message : u.message r = s.message r := by rw [State.message, messages, State.message]
  have delivery : u.delivery r k = some d := by rw [State.delivery, message, ← at', State.delivery]
  simp only [State.phaseLine, active, channel, message, delivery]
  cases (u.circuit c).send.phase <;> simp only [State.lineFor]

theorem State.sendOffers_line {s : State} {c : Circuit} (phase : (s.circuit c).send.phase ≠ .text) :
    s.sendOffers c = (s.phaseLine c)[(s.circuit c).send.position]? := by
  cases h : (s.circuit c).send.phase <;> simp [State.sendOffers, h] at phase ⊢

/-! ### Preemption (R110, R111) -/

theorem State.offered_cancel {s : State} {c : Circuit} {r : RecordIdx} {k : SlotIdx}
    (offering : s.isParty c = false ∨ (s.circuit c).dialogue.state = .delivering)
    (active : (s.circuit c).send.active = some (r, k)) (phase : (s.circuit c).send.phase = .cancel)
    (position : (s.circuit c).send.position = 0) : s.offered c = some (chCR, .sendController) := by
  have first : s.sendOffers c = some chCR := by
    rw [State.sendOffers_line (by rw [phase]; decide), position, State.phaseLine, active]
    simp only [phase]
    rfl
  rw [State.offered_send offering, first]
  rfl

/-- A train order waits, and nothing stands in its way (R110). -/
theorem State.preempts_point {s : State} {c : Circuit} {r : RecordIdx} {k : SlotIdx} {e : QueueEntry}
    (point : s.isParty c = false) (active : (s.circuit c).send.active = some (r, k))
    (phase : (s.circuit c).send.phase.beforeTrailer = true) (noCancel : (s.circuit c).send.pendingCancel = false)
    (enabled : (s.circuit c).control.effective.preemption = true)
    (rank : (s.message r).rank = .r ∨ (s.message r).rank = .s)
    (noHold : ¬ ((s.circuit c).control.state = .ready ∧ (s.circuit c).control.holdPending = true))
    (train : e ∈ (s.queue c .t).entries) : s.preempts c = true := by
  have may : s.preemptable c = true := by
    have noHold' : (decide ((s.circuit c).control.state = .ready) && (s.circuit c).control.holdPending) = false := by
      simpa using noHold
    simp only [State.preemptable, active, enabled, phase, point, noHold']
    simpa using rank
  have waits : ((s.queue c .t).entries.any fun e => !s.isParty c || s.entryAnswering c e) = true :=
    List.any_eq_true.mpr ⟨e, train, by simp [point]⟩
  rw [State.preempts, may, noCancel, waits]
  rfl

/-- On a point circuit a cancel line's beginning changes the send controller alone (R111). -/
theorem beginCancelLine_point {s : State} {c : Circuit} (cause : CancelCause) (point : s.isParty c = false) :
    beginCancelLine c cause s = s.setCircuit c { s.circuit c with
      send := { (s.circuit c).send with
        phase := .cancel, cause := some cause, position := 0, remaining := 9, fifo := [], fetch := none } } := by
  have stays : (s.updSend c fun x => { x with
      phase := .cancel, cause := some cause, position := 0, remaining := 9, fifo := [], fetch := none }).isParty c =
      false := by
    rw [State.isParty, State.updSend_eq, State.circuit_setCircuit_self]
    exact point
  exact if_neg (by simp only [stays]; decide)

end Sys2Proof.Machine

open Sys2Proof Sys2Proof.Machine

/-- Settles O19: the two cases of the transmitter. -/
theorem sendTickRunsTheTransmitter : Obligations.SendTickRunsTheTransmitter := by
  unfold Obligations.SendTickRunsTheTransmitter
  refine fun c s => ⟨fun char tick total source sending within => ?_, fun idle noCancel stays => ?_⟩
  · refine ⟨_, congrArg Host.Outcome.next (?_ : sendTick c s = s.updLine c fun l =>
      { l with transmitter := .sending char (tick + 1) total source, txTicksDue := l.txTicksDue - 1 }),
      s.onlyCircuit_setCircuit c _, by simp⟩
    unfold sendTick
    rw [sending]
    exact if_neg (by omega)
  · obtain ⟨w, hw⟩ : ∃ w, w = s.updLine c fun l => { l with txTicksDue := l.txTicksDue - 1 } := ⟨_, rfl⟩
    have at' : w.circuit c = { s.circuit c with line := { (s.circuit c).line with
        txTicksDue := (s.circuit c).line.txTicksDue - 1 } } := hw ▸ s.circuit_setCircuit_self c _
    have ticked : s.onlyCircuit w c [] := hw ▸ s.onlyCircuit_setCircuit c _
    have messages : w.messages = s.messages := by rw [ticked.1]
    have form : sendTick c s = takeOffered c w := by
      unfold sendTick
      rw [idle, hw]
      have stays' : w.preempts c = false := (State.preempts_of_line messages at').trans stays
      rw [hw] at stays'
      simp only [noCancel, stays', Bool.false_and, Bool.and_false]
      rfl
    obtain ⟨takes, at2⟩ := takeOffered_spec c w
    rw [at', State.offered_of_line messages at'] at at2
    refine ⟨_, congrArg Host.Outcome.next form, State.onlyCircuit_trans (l := []) ticked takes, fun none' => ?_,
      fun char source offered => ?_⟩
    · rw [at2, none', CircuitState.took, ← idle]
    · rw [at2, offered, CircuitState.took]


/-- Settles O20: the phases one after another, and the four lines. -/
theorem headingCharactersFollowEachOther : Obligations.HeadingCharactersFollowEachOther := by
  unfold Obligations.HeadingCharactersFollowEachOther
  refine ⟨fun c s char tick total r k d sending due active at' noCancel stays offering service valid => ?_, ?_⟩
  · intro x m p heading destination goes afterDestination
    have active' : ((s.atBoundary c).circuit c).send.active = some (r, k) := by rw [s.circuit_atBoundary, active]
    have noCancel' : ((s.atBoundary c).circuit c).send.pendingCancel = false := by rw [s.circuit_atBoundary, noCancel]
    have within := sendCharLeft_within active' noCancel'
    have enters (next : Phase) := sendCharLeft_enters (next := next) active' noCancel'
    simp only [s.circuit_atBoundary] at within enters
    have go (phase : Phase) (position : Nat) (next : Option RelayChar) := boundary_goes (phase := phase)
      (position := position) (next := next) sending due stays offering service valid
    have length : (s.atBoundary c).phaseLine c = s.lineFor c r d (s.circuit c).send.phase := by
      rw [State.phaseLine_eq (s := s) (u := s.atBoundary c) rfl active' (by rw [s.circuit_atBoundary]) at', s.circuit_atBoundary]
    have offersLine {phase : Phase} {position : Nat} (other : phase ≠ .text) (u : State) (messages : u.messages = s.messages)
        (send : (u.circuit c).send = (s.circuit c).send.moved phase position) :
        u.sendOffers c = (s.lineFor c r d phase)[position]? := by
      rw [State.sendOffers_line (by rw [send]; exact other), State.phaseLine_eq messages (by rw [send]; exact active)
        (by rw [send]; rfl) at', send]
      rfl
    have offersText {position : Nat} (u : State) (_ : u.messages = s.messages)
        (send : (u.circuit c).send = (s.circuit c).send.moved .text position) :
        u.sendOffers c = x.send.fifo.head? := by
      rw [State.sendOffers_text (by rw [send]; rfl), send]
      rfl
    rw [length] at within enters
    refine ⟨fun phase => ⟨fun more => ?_, fun last => ?_⟩, fun phase => ⟨fun more => ?_, fun last => ?_⟩,
      fun phase => ⟨fun more => ?_, fun last => ?_⟩, fun phase more => ?_⟩
    · exact go .heading (p + 1) _ (by rw [← phase]; exact within (.inl ⟨.inl phase, by rw [phase]; exact more⟩))
        (fun _ => by rw [phase]; rfl) (offersLine (by decide))
    · exact go .dest 0 _ (enters .dest (.inl ⟨phase, by rw [phase]; exact last.symm, rfl⟩))
        (fun _ => by rw [phase]; rfl) (offersLine (by decide))
    · exact go .dest (p + 1) _ (by rw [← phase]; exact within (.inl ⟨.inr (.inl phase), by rw [phase]; exact more⟩))
        (fun _ => by rw [phase]; rfl) (offersLine (by decide))
    · have entered (next : Phase) (e : next = if m.textLength = 0 then .trailer else .text) :=
        enters next (.inr (.inl ⟨phase, by rw [phase]; exact last.symm, e⟩))
      show if m.textLength = 0 then _ else _
      split
      · exact go .trailer 0 _ (entered _ (if_pos ‹_›).symm) (fun _ => by rw [phase]; rfl) (offersLine (by decide))
      · exact go .text 0 _ (entered _ (if_neg ‹_›).symm) (fun _ => by rw [phase]; rfl) offersText
    · exact go .text (p + 1) _ (by rw [← phase]; exact within (.inr ⟨phase, more⟩)) (fun _ => by rw [phase]; rfl) offersText
    · exact go .trailer 0 _ (enters .trailer (.inr (.inr ⟨phase, last, rfl⟩))) (fun _ => by rw [phase]; rfl)
        (offersLine (by decide))
    · exact go .trailer (p + 1) _ (by rw [← phase]; exact within (.inl ⟨.inr (.inr phase), by rw [phase]; exact more⟩))
        (fun e => by cases e) (offersLine (by decide))
  · intro channel p origin m codes digit letter
    refine ⟨?_, ?_, rfl, rfl⟩
    · cases p <;> rfl
    · rw [destinationLine, spacedCodes_eq, Message.codesOf_pairs]
      rfl

/-- Settles O22: the boundary within the text, the preemption, and the first character of the cancel line. -/
theorem trainOrderPreemptsAtTheBoundary : Obligations.TrainOrderPreemptsAtTheBoundary := by
  unfold Obligations.TrainOrderPreemptsAtTheBoundary
  intro c s char tick total r k e sending due active phase more noCancel point enabled rank noHold train service valid
  have atBoundary := s.circuit_atBoundary c
  obtain ⟨only, at'⟩ := sendCharLeft_within (s := s.atBoundary c) (c := c) (r := r) (k := k) (by rw [atBoundary, active])
    (by rw [atBoundary, noCancel]) (.inr ⟨by rw [atBoundary, phase], by rw [atBoundary]; exact more⟩)
  rw [atBoundary] at at'
  obtain ⟨u, hu⟩ : ∃ u, u = sendCharLeft c (s.atBoundary c) := ⟨_, rfl⟩
  rw [← hu] at only at'
  have change : s.onlyCircuit u c [] := State.onlyCircuit_trans (l := []) (s.onlyCircuit_setCircuit c _) only
  have word : u.setting c 1 = s.setting c 1 := State.setting_of_onlyCircuit change c 1
  have compared := u.circuit_sendCompared c
  obtain ⟨v, hv⟩ : ∃ v, v = u.sendCompared c := ⟨_, rfl⟩
  rw [← hv, at', word] at compared
  have copies : s.onlyCircuit v c [] := State.onlyCircuit_trans (l := []) change (hv ▸ u.onlyCircuit_setCircuit c _)
  have pointV : v.isParty c = false := by
    rw [State.isParty, compared]
    exact point
  have preempts : v.preempts c = true := by
    refine State.preempts_point (r := r) (k := k) (e := e) pointV ?_ ?_ ?_ ?_ ?_ ?_ ?_
    · rw [compared]
      exact active
    · rw [compared, phase]
      rfl
    · rw [compared]
      exact noCancel
    · rw [compared]
      exact enabled
    · rw [State.message_of_onlyCircuit copies]
      exact rank
    · rw [compared]
      exact noHold
    · rw [State.queue, compared]
      exact train
  have told : characterBoundary c s = takeOffered c (beginCancelLine c .preempt v) := by
    have copied : compareSpeed false true c u = v := by
      rw [hv]
      refine compareSpeed_send (.inl (by rw [word, valid])) ?_
      rw [State.inService, at']
      exact service
    rw [characterBoundary_eq sending due, tellSource_sendController, ← hu]
    simp only [nextCharacter, copied, preempts, if_true]
  obtain ⟨w, hw⟩ : ∃ w, w = beginCancelLine c .preempt v := ⟨_, rfl⟩
  have begins := beginCancelLine_point .preempt pointV
  rw [← hw] at told begins
  have atW : w.circuit c = { v.circuit c with
      send := { (v.circuit c).send with
        phase := .cancel, cause := some .preempt, position := 0, remaining := 9, fifo := [], fetch := none } } := by
    rw [begins, State.circuit_setCircuit_self]
  have offered : w.offered c = some (chCR, .sendController) := by
    refine State.offered_cancel (r := r) (k := k) (.inl ?_) ?_ ?_ ?_
    · rw [State.isParty, atW]
      exact pointV
    · rw [atW, compared]
      exact active
    · rw [atW]
    · rw [atW]
  obtain ⟨takes, at2⟩ := takeOffered_spec c w
  have cancels : s.onlyCircuit w c [] := State.onlyCircuit_trans (l := []) copies (begins ▸ v.onlyCircuit_setCircuit c _)
  refine ⟨_, congrArg Host.Outcome.next told, State.onlyCircuit_trans (l := []) cancels takes, ?_⟩
  rw [at2, offered, atW, compared]
  simp [CircuitState.took, SendController.moved]

end

section
/-! PROOF. The ends of a transmission (R108, R109, R112, R114, R135, R147). -/

namespace Sys2Proof.Machine

/-! ### The last character of a trailer or a cancel line -/

/-- The state in which the last character of a line is told to the end of its phase. -/
def State.lastLeft (s : State) (c : Circuit) : State :=
  (s.atBoundary c).updSend c fun x => { x with remaining := x.remaining - 1, position := x.position + 1 }

theorem State.circuit_lastLeft (s : State) (c : Circuit) : (s.lastLeft c).circuit c = { s.circuit c with
    line := { (s.circuit c).line with transmitter := .idle, txTicksDue := (s.circuit c).line.txTicksDue - 1 }
    send := { (s.circuit c).send with
      remaining := (s.circuit c).send.remaining - 1, position := (s.circuit c).send.position + 1 } } := by
  simp [State.lastLeft, s.circuit_atBoundary]

theorem State.onlyCircuit_lastLeft (s : State) (c : Circuit) : s.onlyCircuit (s.lastLeft c) c [] :=
  (s.onlyCircuit_setCircuit c _).set _

theorem State.isParty_lastLeft (s : State) (c : Circuit) : (s.lastLeft c).isParty c = s.isParty c := by
  rw [State.isParty, s.circuit_lastLeft, State.isParty]

/-- The nine characters of a trailer or a cancel line, or none (R107, R111). -/
theorem State.phaseLine_length_le {s : State} {c : Circuit}
    (phase : (s.circuit c).send.phase = .trailer ∨ (s.circuit c).send.phase = .cancel) : (s.phaseLine c).length ≤ 9 := by
  cases active : (s.circuit c).send.active with
  | none => simp [State.phaseLine, active]
  | some e =>
    rcases phase with phase | phase
    · simp [State.phaseLine, active, phase, trailerLine]
    · simp [State.phaseLine, active, phase, cancelLine]

section Last

variable {s : State} {c : Circuit} {char : RelayChar} {tick total : Nat}

/-- The ninth character of a trailer. -/
theorem boundary_trailerEnd
    (sending : (s.circuit c).line.transmitter = .sending char tick total (some .sendController)) (due : total ≤ tick + 1)
    (position : (s.circuit c).send.position = 8) (phase : (s.circuit c).send.phase = .trailer) :
    characterBoundary c s = nextCharacter c (trailerEnd c (s.lastLeft c)) := by
  have ninth : ((s.atBoundary c).phaseLine c).length ≤ 8 + 1 :=
    State.phaseLine_length_le (by rw [s.circuit_atBoundary]; simp [phase])
  have told : sendCharLeft c (s.atBoundary c) = trailerEnd c (s.lastLeft c) := by
    have at' := s.circuit_atBoundary c
    simp only [sendCharLeft, at', phase, position, Phase.beforeTrailer, Bool.and_false, ninth]
    rfl
  rw [characterBoundary_eq sending due, tellSource_sendController, told]

/-- The ninth character of a cancel line. -/
theorem boundary_cancelLineEnd
    (sending : (s.circuit c).line.transmitter = .sending char tick total (some .sendController)) (due : total ≤ tick + 1)
    (position : (s.circuit c).send.position = 8) (phase : (s.circuit c).send.phase = .cancel) :
    characterBoundary c s = nextCharacter c (cancelLineEnd c (s.lastLeft c)) := by
  have ninth : ((s.atBoundary c).phaseLine c).length ≤ 8 + 1 :=
    State.phaseLine_length_le (by rw [s.circuit_atBoundary]; simp [phase])
  have told : sendCharLeft c (s.atBoundary c) = cancelLineEnd c (s.lastLeft c) := by
    have at' := s.circuit_atBoundary c
    simp only [sendCharLeft, at', phase, position, Phase.beforeTrailer, Bool.and_false, ninth]
    rfl
  rw [characterBoundary_eq sending due, tellSource_sendController, told]

end Last

/-! ### What follows (R108, R112, R114) -/

theorem KeepsLines.isParty {s t : State} (h : KeepsLines s t) (c : Circuit) : t.isParty c = s.isParty c := by
  rw [State.isParty, (h.2 c).1, State.isParty]

theorem afterTransmission_point {s : State} {c : Circuit} (point : s.isParty c = false) :
    afterTransmission c s = judgePoint c (transmissionEnded c s) := by
  have point' : (transmissionEnded c s).isParty c = false := by rw [KeepsLines.refl.transmissionEnded.isParty, point]
  rw [afterTransmission, if_neg (by simp [point'])]

theorem afterTransmission_party {s : State} {c : Circuit} (party : s.isParty c = true) :
    afterTransmission c s = judge c (enterQuiet c (transmissionEnded c s)) := by
  have party' : (transmissionEnded c s).isParty c = true := by rw [KeepsLines.refl.transmissionEnded.isParty, party]
  rw [afterTransmission, if_pos party', quietAndJudge]

theorem transmissionEnded_stays {s : State} {c : Circuit} (h : (s.circuit c).control.holdPending = false) :
    transmissionEnded c s = s := if_neg (by simp [h])

theorem transmissionEnded_holds {s : State} {c : Circuit} (pending : (s.circuit c).control.holdPending = true)
    (valid : speedSettingInvalid (s.setting c 1) = false) :
    s.onlyCircuit (transmissionEnded c s) c [(.circuit c none, 0, .circuitState .held .holdDone)] ∧
    (transmissionEnded c s).circuit c = { s.circuit c with
      line := (s.circuit c).line.compared (s.setting c 1)
      control := { (s.circuit c).control with state := .held, holdPending := false } } := by
  obtain ⟨enters, at'⟩ := setMode_spec c .held .holdDone (s.updControl c fun k => { k with holdPending := false })
    (.inl valid)
  have form : transmissionEnded c s = setMode c .held .holdDone (s.updControl c fun k =>
      { k with holdPending := false }) := if_pos pending
  rw [form, at']
  exact ⟨State.onlyCircuit_trans (l := []) (s.onlyCircuit_setCircuit c _) enters, by simp⟩

/-! ### The delivery at the end (R51, R97) -/

theorem State.deliveryPlace_point {s : State} {c : Circuit} (d : Delivery) (point : s.isParty c = false) :
    s.deliveryPlace c d = .circuit c none := by simp [State.deliveryPlace, State.partyStation, point]

theorem State.deliveryPlace_party {s : State} {c : Circuit} (d : Delivery) (party : s.isParty c = true) :
    s.deliveryPlace c d = .circuit c (some d.station) := by simp [State.deliveryPlace, State.partyStation, party]

section Active

variable {s : State} {c : Circuit} {r : RecordIdx} {k : SlotIdx} {d : Delivery}

theorem deliverActive_eq (active : (s.circuit c).send.active = some (r, k)) (at' : s.delivery r k = some d) :
    deliverActive c s = settle r ((endActive c r k .done s).raise (s.deliveryPlace c d) (s.tag r)
      (.delivered k ((s.circuit c).send.channel.getD 0))) := by
  simp only [deliverActive, active, at']

theorem cancelActive_eq (active : (s.circuit c).send.active = some (r, k)) :
    cancelActive c s = settle r (endActive c r k .cancelled s) := by
  simp only [cancelActive, active]

theorem preemptReturn_eq (active : (s.circuit c).send.active = some (r, k)) (at' : s.delivery r k = some d) :
    preemptReturn c s = (returnDelivery c false s).raise (s.deliveryPlace c d) (s.tag r) .preempted := by
  simp only [preemptReturn, active, at']

end Active

/-- What stands before the end of a delivery whose last character has left: its record and its circuit. -/
theorem State.delivery_lastLeft (s : State) (c : Circuit) (r : RecordIdx) (k : SlotIdx) :
    (s.lastLeft c).delivery r k = s.delivery r k := State.delivery_of_onlyCircuit (s.onlyCircuit_lastLeft c) r k

/-- The delivery ends, the send controller goes to phase NONE (R51). -/
theorem endActive_lastLeft {s : State} {c : Circuit} {r : RecordIdx} {k : SlotIdx} {d : Delivery} (state : DeliveryState)
    (at' : s.delivery r k = some d) :
    s.onlyPair (endActive c r k state (s.lastLeft c)) c r [] ∧
    (endActive c r k state (s.lastLeft c)).circuit c = { s.circuit c with
      send := .none
      line := { (s.circuit c).line with transmitter := .idle, txTicksDue := (s.circuit c).line.txTicksDue - 1 } } ∧
    (endActive c r k state (s.lastLeft c)).message r = (s.message r).placed k { d with state := state } := by
  obtain ⟨only, circuit, message⟩ := endActive_spec (s := s.lastLeft c) (c := c) state ((s.delivery_lastLeft c r k).trans at')
  refine ⟨State.onlyPair_trans (l := []) (State.onlyPair_of_onlyCircuit r (s.onlyCircuit_lastLeft c)) only, ?_, message⟩
  rw [circuit, s.circuit_lastLeft]

/-- The delivery returns, and PREEMPTED is raised (R97, R112). -/
theorem preemptReturn_lastLeft {s : State} {c : Circuit} {r : RecordIdx} {k : SlotIdx} {d : Delivery}
    (active : (s.circuit c).send.active = some (r, k)) (at' : s.delivery r k = some d) (own : d.circuit = c)
    (alone : (s.lastLeft c).absorbable r k d = none) :
    s.onlyPair (preemptReturn c (s.lastLeft c)) c r [(s.deliveryPlace c d, s.tag r, .preempted)] ∧
    (preemptReturn c (s.lastLeft c)).circuit c =
      { (s.circuit c).returned (s.message r).rank ⟨r, k, sentLength (s.message r) d.codes⟩ with
        line := { (s.circuit c).line with transmitter := .idle, txTicksDue := (s.circuit c).line.txTicksDue - 1 } } ∧
    (preemptReturn c (s.lastLeft c)).message r = (s.message r).placed k (d.returned false) := by
  have active' : ((s.lastLeft c).circuit c).send.active = some (r, k) := by rw [s.circuit_lastLeft, active]
  have delivery : (s.lastLeft c).delivery r k = some d := (s.delivery_lastLeft c r k).trans at'
  obtain ⟨only, circuit, message⟩ := returnDelivery_spec false active' delivery own alone
  have place : (s.lastLeft c).deliveryPlace c d = s.deliveryPlace c d := by
    rw [State.deliveryPlace, State.partyStation, s.isParty_lastLeft, State.deliveryPlace, State.partyStation]
  have tag : (s.lastLeft c).tag r = s.tag r := rfl
  rw [preemptReturn_eq active' delivery, place, tag]
  refine ⟨State.onlyPair_trans (l := []) (State.onlyPair_of_onlyCircuit r (s.onlyCircuit_lastLeft c))
    (only.report _ _ _), ?_, ?_⟩
  · rw [State.circuit_raise, circuit, s.circuit_lastLeft]
    rfl
  · rw [State.message_raise, message]
    rfl

/-! ### The wait for the receipt (R109, R126) -/

/-- The dialogue that waits for a receipt. -/
def Dialogue.awaitsReceipt (d : Dialogue) (timeout : Nat) : Dialogue :=
  { d with
    state := .receiptWait, answerTimer := some timeout, matchPos := 0, answerShift := .letters, pollReply := none }

/-- The state in which the receipt is awaited. -/
def State.receiptBegun (s : State) (c : Circuit) : State :=
  beginWait c .receiptWait ((s.lastLeft c).updSend c fun x =>
    { x with phase := .receipt, position := 0, remaining := 0, pendingCancel := false })

theorem State.receiptBegun_spec (s : State) (c : Circuit) : s.onlyCircuit (s.receiptBegun c) c [] ∧
    (s.receiptBegun c).circuit c = { s.circuit c with
      line := { (s.circuit c).line with transmitter := .idle, txTicksDue := (s.circuit c).line.txTicksDue - 1 }
      send := { (s.circuit c).send with phase := .receipt, position := 0, remaining := 0, pendingCancel := false }
      dialogue := (s.circuit c).dialogue.awaitsReceipt (s.circuit c).control.effective.answerTimeout } := by
  refine ⟨((s.onlyCircuit_lastLeft c).set _).set _, ?_⟩
  simp [State.receiptBegun, beginWait, s.circuit_lastLeft, Dialogue.awaitsReceipt]

theorem trailerEnd_party {s : State} {c : Circuit} (party : s.isParty c = true) : trailerEnd c (s.lastLeft c) =
    if (s.circuit c).send.pendingCancel then afterTransmission c (cancelActive c (s.receiptBegun c))
    else s.receiptBegun c := by
  rw [trailerEnd, if_pos ((s.isParty_lastLeft c).trans party), s.circuit_lastLeft]
  rfl

/-- While a receipt is awaited nothing is offered, and nothing preempted (R9, R109, R110). -/
theorem State.offered_receipt {s : State} {c : Circuit} (phase : (s.circuit c).send.phase = .receipt)
    (waits : (s.circuit c).dialogue.state = .receiptWait) : s.offered c = none := by
  have sends : s.sendOffers c = none := by
    rw [State.sendOffers_line (by rw [phase]; decide)]
    cases active : (s.circuit c).send.active with
    | none => simp [State.phaseLine, active]
    | some e => simp [State.phaseLine, active, phase]
  unfold State.offered
  rw [waits, sends]
  cases s.isParty c <;> rfl

theorem State.preempts_receipt {s : State} {c : Circuit} (phase : (s.circuit c).send.phase = .receipt) :
    s.preempts c = false := by
  have not' : s.preemptable c = false := by
    cases active : (s.circuit c).send.active with
    | none => simp [State.preemptable, active]
    | some e => simp [State.preemptable, active, phase, Phase.beforeTrailer]
  simp [State.preempts, not']

/-- After the trailer on a party circuit the transmitter compares speeds and rests (R9, R11, R109). -/
theorem nextCharacter_receipt {s : State} {c : Circuit} (phase : (s.circuit c).send.phase = .receipt)
    (waits : (s.circuit c).dialogue.state = .receiptWait) (valid : speedSettingInvalid (s.setting c 1) = false) :
    s.onlyCircuit (nextCharacter c s) c [] ∧
    (nextCharacter c s).circuit c = { s.circuit c with
      line := { (s.circuit c).line with
        transmitter := .idle
        txSpeed := if s.inService c then (speedOf (s.setting c 1)).getD (s.circuit c).line.txSpeed
          else (s.circuit c).line.txSpeed
        txStop := if s.inService c then (stopOf (s.setting c 1)).getD (s.circuit c).line.txStop
          else (s.circuit c).line.txStop } } := by
  obtain ⟨compares, at'⟩ := compareSpeed_spec false true c s
  obtain ⟨v, hv⟩ : ∃ v, v = compareSpeed false true c s := ⟨_, rfl⟩
  have quiet : s.raisesHeld c = false := by simp [State.raisesHeld, valid]
  rw [← hv, quiet] at compares at'
  have phase' : (v.circuit c).send.phase = .receipt := by rw [at', phase]
  have waits' : (v.circuit c).dialogue.state = .receiptWait := by rw [at', waits]
  have form : nextCharacter c s = takeOffered c v := by
    simp only [nextCharacter, ← hv]
    rw [if_neg (by simp [State.preempts_receipt phase'])]
  obtain ⟨takes, at2⟩ := takeOffered_spec c v
  rw [form]
  refine ⟨State.onlyCircuit_trans (l := []) compares takes, ?_⟩
  rw [at2, State.offered_receipt phase' waits', at']
  cases s.inService c with
  | true => simp [CircuitState.took, LineUnit.copied]
  | false => simp [CircuitState.took]

/-- Another station's delivery is not absorbed (R80, R97). -/
theorem State.absorbable_party {s : State} {c : Circuit} {r : RecordIdx} {k : SlotIdx} {d : Delivery} (own : d.circuit = c)
    (party : s.isParty c = true) (alone : ∀ j : SlotIdx, j ≠ k → ∀ d', s.delivery r j = some d' →
      ¬ (d'.state = .queued ∧ d'.circuit = c ∧ d'.station = d.station)) : s.absorbable r k d = none :=
  State.absorbable_eq_none fun j other d' at' queued => by
    have apart : ¬ (d.circuit = d'.circuit ∧ d.station = d'.station) := fun ⟨circuit, station⟩ =>
      alone j other d' at' ⟨queued, circuit.symm.trans own, station.symm⟩
    simpa [State.sameTarget, own, party] using apart

end Sys2Proof.Machine

open Sys2Proof Sys2Proof.Machine

/-- Settles O21: the ninth character of the trailer and of the cancel line, on a point and on a party circuit. -/
theorem lastTrailerCharacterDeliversTheMessage : Obligations.LastTrailerCharacterDeliversTheMessage := by
  unfold Obligations.LastTrailerCharacterDeliversTheMessage
  refine ⟨fun c s char tick total r k d sending due position active at' point => ?_,
    fun c s => ⟨transmissionEnded_stays, transmissionEnded_holds⟩,
    fun c s char tick total sending due position party => ?_⟩
  · intro x m idle ends keeps
    have active' : ((s.lastLeft c).circuit c).send.active = some (r, k) := by rw [s.circuit_lastLeft, active]
    have delivery : (s.lastLeft c).delivery r k = some d := (s.delivery_lastLeft c r k).trans at'
    have pointLast : (s.lastLeft c).isParty c = false := (s.isParty_lastLeft c).trans point
    have pointEnd {u : State} (h : KeepsLines (s.lastLeft c) u) : u.isParty c = false := (h.isParty c).trans pointLast
    refine ⟨fun phase => ?_, fun phase cause => ?_, fun phase cause own alone => ?_⟩
    · obtain ⟨only, circuit, message⟩ := endActive_lastLeft (c := c) .done at'
      have place : (s.lastLeft c).deliveryPlace c d = .circuit c none := State.deliveryPlace_point d pointLast
      have runs : characterBoundary c s = ends (settle r ((endActive c r k .done (s.lastLeft c)).raise (.circuit c none)
          (s.tag r) (.delivered k (x.send.channel.getD 0)))) := by
        rw [boundary_trailerEnd sending due position phase, trailerEnd, if_neg (by simp [pointLast]),
          afterTransmission_point (pointEnd KeepsLines.refl.deliverActive), deliverActive_eq active' delivery, place,
          s.circuit_lastLeft]
        rfl
      exact ⟨_, congrArg Host.Outcome.next runs, only.report _ _ _, (State.circuit_raise _ _ _ _ _).trans circuit,
        (State.message_raise _ _ _ _ _).trans message⟩
    · obtain ⟨only, circuit, message⟩ := endActive_lastLeft (c := c) .cancelled at'
      have runs : characterBoundary c s = ends (settle r (endActive c r k .cancelled (s.lastLeft c))) := by
        rw [boundary_cancelLineEnd sending due position phase, cancelLineEnd, if_pos (by rw [s.circuit_lastLeft, cause]),
          afterTransmission_point (pointEnd KeepsLines.refl.cancelActive), cancelActive_eq active']
        rfl
      exact ⟨_, congrArg Host.Outcome.next runs, only, circuit, message⟩
    · intro length
      obtain ⟨only, circuit, message⟩ := preemptReturn_lastLeft (c := c) active at' own (State.absorbable_point own alone)
      rw [State.deliveryPlace_point d point] at only
      have runs : characterBoundary c s = ends (preemptReturn c (s.lastLeft c)) := by
        rw [boundary_cancelLineEnd sending due position phase, cancelLineEnd,
          if_neg (by rw [s.circuit_lastLeft, cause]; decide), afterTransmission_point]
        · rfl
        · rw [State.isParty, circuit]
          exact point
      exact ⟨_, congrArg Host.Outcome.next runs, only, circuit, message⟩
  · intro x idle waits
    have partyLast : (s.lastLeft c).isParty c = true := (s.isParty_lastLeft c).trans party
    have partyEnd {u : State} (h : KeepsLines (s.lastLeft c) u) : u.isParty c = true := (h.isParty c).trans partyLast
    refine ⟨fun phase noCancel valid => ?_, fun r k d active at' => ?_⟩
    · obtain ⟨begins, at'⟩ := s.receiptBegun_spec c
      have word : (s.receiptBegun c).setting c 1 = s.setting c 1 := State.setting_of_onlyCircuit begins c 1
      have service : (s.receiptBegun c).inService c = s.inService c := by rw [State.inService, at', State.inService]
      obtain ⟨rests, at2⟩ := nextCharacter_receipt (s := s.receiptBegun c) (c := c) (by rw [at']) (by rw [at']; rfl)
        (by rw [word, valid])
      have runs : characterBoundary c s = nextCharacter c (s.receiptBegun c) := by
        rw [boundary_trailerEnd sending due position phase, trailerEnd_party party, if_neg]
        exact fun e => by
          have noCancel' : (s.circuit c).send.pendingCancel = false := noCancel
          rw [noCancel'] at e
          cases e
      refine ⟨_, congrArg Host.Outcome.next runs, State.onlyCircuit_trans (l := []) begins rests, ?_⟩
      rw [at2, at', word, service, ← noCancel]
      rfl
    · intro m ends keeps cancelled
      have active' : ((s.lastLeft c).circuit c).send.active = some (r, k) := by rw [s.circuit_lastLeft, active]
      have delivery : (s.lastLeft c).delivery r k = some d := (s.delivery_lastLeft c r k).trans at'
      refine ⟨fun phase pending => ?_, fun phase cause => ?_, fun phase cause own alone => ?_⟩
      · obtain ⟨begins, atBegun⟩ := s.receiptBegun_spec c
        obtain ⟨only, circuit, message⟩ := endActive_spec (s := s.receiptBegun c) (c := c) .cancelled
          ((State.delivery_of_onlyCircuit begins r k).trans at')
        have runs : characterBoundary c s = ends (settle r (endActive c r k .cancelled (s.receiptBegun c))) := by
          have party' : (s.receiptBegun c).isParty c = true := by
            rw [State.isParty, atBegun]
            exact party
          rw [boundary_trailerEnd sending due position phase, trailerEnd_party party, if_pos pending,
            afterTransmission_party ((KeepsLines.refl.cancelActive.isParty c).trans party'),
            cancelActive_eq (r := r) (k := k) (by rw [atBegun]; exact active)]
          rfl
        refine ⟨_, congrArg Host.Outcome.next runs, State.onlyPair_trans (l := [])
          (State.onlyPair_of_onlyCircuit r begins) only, ?_, message⟩
        rw [circuit, atBegun]
        rfl
      · obtain ⟨only, circuit, message⟩ := endActive_lastLeft (c := c) .cancelled at'
        have runs : characterBoundary c s = ends (settle r (endActive c r k .cancelled (s.lastLeft c))) := by
          rw [boundary_cancelLineEnd sending due position phase, cancelLineEnd, if_pos (by rw [s.circuit_lastLeft, cause]),
            afterTransmission_party (partyEnd KeepsLines.refl.cancelActive), cancelActive_eq active']
          rfl
        exact ⟨_, congrArg Host.Outcome.next runs, only, circuit, message⟩
      · intro length
        have apart : (s.lastLeft c).absorbable r k d = none := State.absorbable_party own partyLast alone
        obtain ⟨only, circuit, message⟩ := preemptReturn_lastLeft (c := c) active at' own apart
        rw [State.deliveryPlace_party d party] at only
        have runs : characterBoundary c s = ends (preemptReturn c (s.lastLeft c)) := by
          rw [boundary_cancelLineEnd sending due position phase, cancelLineEnd,
            if_neg (by rw [s.circuit_lastLeft, cause]; decide), afterTransmission_party]
          · rfl
          · rw [State.isParty, circuit]
            exact party
        exact ⟨_, congrArg Host.Outcome.next runs, only, circuit, message⟩

end

section
/-! SUPPORT. A completed character of a circuit in service, up to the recogniser's or the dialogue's own handling (R7,
R20, R31, R36); and the grant of a record at a start of message (R22, R46). -/

namespace Sys2Proof.Machine

/-! ### The character handed on (R5 to R7, R11) -/

/-- Word 1 is valid, or its SETTING_HELD stands already: a comparison raises nothing (R11, R12). -/
abbrev State.quietWord (s : State) (c : Circuit) : Prop :=
  speedSettingInvalid (s.setting c 1) = false ∨ (s.circuit c).line.settingHeld = true

theorem State.raisesHeld_of_quiet {s : State} {c : Circuit} (quiet : s.quietWord c) : s.raisesHeld c = false := by
  rcases quiet with h | h <;> simp [State.raisesHeld, h]

/-- The stop sample changes the line unit only. -/
theorem State.sampled_quiet {s : State} {c : Circuit} (mark : Bool) (quiet : s.quietWord c) :
    s.onlyCircuit (s.sampled c mark) c [] ∧
    (s.sampled c mark).circuit c = { s.circuit c with line := ((s.sampled c mark).circuit c).line } ∧
    ((s.sampled c mark).circuit c).line.receiver = .hunting ∧
    ((s.sampled c mark).circuit c).line.transmitter = (s.circuit c).line.transmitter := by
  obtain ⟨only, at'⟩ := s.sampled_spec c mark
  rw [State.raisesHeld_of_quiet quiet] at only
  rw [at', LineUnit.stopSample_eq]
  exact ⟨only, rfl, rfl, rfl⟩

/-- The completed character's value: a space stop sample makes it a BLANK (R6). -/
def sampledValue (mark : Bool) (bits : RelayChar) : RelayChar := if mark then bits else 0

theorem exec_characterReceived {s : State} {c : Circuit} {mark : Bool} {k : Nat} {bits : RelayChar}
    (receiver : (s.circuit c).line.receiver = .assembling k bits) (due : 95 ≤ k) :
    exec (.characterReceived c mark) s = .next (handOn c (sampledValue mark bits) (!mark) (s.sampled c mark)) :=
  congrArg Host.Outcome.next (characterReceived_eq receiver due)

theorem State.inService_sampled (s : State) (c : Circuit) (mark : Bool) :
    (s.sampled c mark).inService c = s.inService c := by rw [State.inService, (s.sampled_spec c mark).2, State.inService]

theorem State.isParty_sampled (s : State) (c : Circuit) (mark : Bool) :
    (s.sampled c mark).isParty c = s.isParty c := by rw [State.isParty, (s.sampled_spec c mark).2, State.isParty]

theorem handOn_point {s : State} {c : Circuit} (value : RelayChar) (mutilated : Bool) (service : s.inService c = true)
    (point : s.isParty c = false) : handOn c value mutilated s = recogniserChar c value mutilated s := by
  rw [handOn, if_pos service, if_neg (by simp [point])]

theorem handOn_party {s : State} {c : Circuit} (value : RelayChar) (mutilated : Bool) (service : s.inService c = true)
    (party : s.isParty c = true) : handOn c value mutilated s = dialogueChar c value mutilated s := by
  rw [handOn, if_pos service, if_pos party]

/-! ### The character in the recogniser (R20, R31, R36) -/

/-- The recogniser at a character: its case set and its silence timer loaded (R20, R36). -/
def Recogniser.arrival (q : Recogniser) (value : RelayChar) (mutilated : Bool) (silence : Option Nat) : Recogniser :=
  { q with shift := shiftAfter q.shift value mutilated, silence := silence }

/-- The character as the recogniser reads it (R20). -/
def Recogniser.read (q : Recogniser) (value : RelayChar) (mutilated : Bool) : RxChar :=
  { value := value, mutilated := mutilated, shift := shiftAfter q.shift value mutilated }

/-- The record with a mutilated character counted (R31). -/
def Message.counted (m : Message) (mutilated : Bool) : Message :=
  { m with mutilated := if mutilated then min (m.mutilated + 1) 255 else m.mutilated }

/-- The state in which the receive state handles a character. -/
def State.arrived (s : State) (c : Circuit) (value : RelayChar) (mutilated : Bool) : State :=
  countMutilated c mutilated (s.updRecogniser c fun q =>
    { q with shift := shiftAfter (s.recogniser c).shift value mutilated, silence := s.silenceLoad c })

theorem State.arrived_filling {s : State} {c : Circuit} {r : RecordIdx} (value : RelayChar) (mutilated : Bool)
    (filling : (s.recogniser c).filling = some r) : s.onlyPair (s.arrived c value mutilated) c r [] ∧
    (s.arrived c value mutilated).circuit c = { s.circuit c with
      recogniser := (s.recogniser c).arrival value mutilated (s.silenceLoad c) } ∧
    (s.arrived c value mutilated).message r = (s.message r).counted mutilated := by
  have filling' : (s.circuit c).recogniser.filling = some r := filling
  cases mutilated with
  | false =>
    refine ⟨(s.onlyPair_refl c r).set _, by simp [State.arrived, countMutilated, State.recogniser, Recogniser.arrival], ?_⟩
    simp [State.arrived, countMutilated, Message.counted]
  | true =>
    have form : s.arrived c value true = (s.updRecogniser c fun q => q.arrival value true (s.silenceLoad c)).setMessage r
        ((s.message r).counted true) := by
      simp [State.arrived, countMutilated, State.recogniser, filling', Recogniser.arrival, Message.counted]
    rw [form]
    exact ⟨((s.onlyPair_refl c r).set _).setRecord (m := (s.message r).counted true) rfl, by simp [State.recogniser],
      by simp⟩

/-- A character that is not mutilated, or comes while no record is filled, changes no record. -/
theorem State.arrived_plain {s : State} {c : Circuit} (value : RelayChar) {mutilated : Bool}
    (h : mutilated = false ∨ (s.recogniser c).filling = none) : s.onlyCircuit (s.arrived c value mutilated) c [] ∧
    (s.arrived c value mutilated).circuit c = { s.circuit c with
      recogniser := (s.recogniser c).arrival value mutilated (s.silenceLoad c) } := by
  have form : s.arrived c value mutilated = s.updRecogniser c fun q => q.arrival value mutilated (s.silenceLoad c) := by
    rcases h with rfl | h
    · rfl
    · have none' : (s.circuit c).recogniser.filling = none := h
      cases mutilated <;> simp [State.arrived, countMutilated, State.recogniser, Recogniser.arrival, none']
  rw [form]
  exact ⟨s.onlyCircuit_setCircuit c _, by simp [State.recogniser]⟩

theorem State.recogniser_arrived_state (s : State) (c : Circuit) (value : RelayChar) (mutilated : Bool) :
    ((s.arrived c value mutilated).recogniser c).state = (s.recogniser c).state := by
  cases filling : (s.recogniser c).filling with
  | none =>
    rw [State.recogniser, (State.arrived_plain value (.inr filling)).2]
    rfl
  | some r =>
    rw [State.recogniser, (State.arrived_filling value mutilated filling).2.1]
    rfl

section Handling

variable {s : State} {c : Circuit} (value : RelayChar) (mutilated : Bool)

theorem recogniserChar_hunt (h : (s.recogniser c).state = .hunt) : recogniserChar c value mutilated s =
    huntChar c ((s.recogniser c).read value mutilated) (s.arrived c value mutilated) := by
  have state := (s.recogniser_arrived_state c value mutilated).trans h
  unfold State.arrived at state ⊢
  simp only [recogniserChar, state, Recogniser.read]

theorem recogniserChar_headingLine (h : (s.recogniser c).state = .headingLine) : recogniserChar c value mutilated s =
    headingChar c ((s.recogniser c).read value mutilated) (s.arrived c value mutilated) := by
  have state := (s.recogniser_arrived_state c value mutilated).trans h
  unfold State.arrived at state ⊢
  simp only [recogniserChar, state, Recogniser.read]

/-- In the destination line, the text and a skipped heading the line-start watch comes first (R27). -/
theorem recogniserChar_watched (h : (s.recogniser c).state = .destLine ∨ (s.recogniser c).state = .text ∨
      (s.recogniser c).state = .skipHeading) : recogniserChar c value mutilated s =
    watchChar c false ((s.recogniser c).read value mutilated) (s.arrived c value mutilated) := by
  have state := s.recogniser_arrived_state c value mutilated
  unfold State.arrived at state ⊢
  rcases h with h | h | h <;> simp only [recogniserChar, state, h, Recogniser.read]

/-- In a discard the character is dropped first (R35). -/
theorem recogniserChar_discard (h : (s.recogniser c).state = .discard) : recogniserChar c value mutilated s =
    watchChar c true ((s.recogniser c).read value mutilated) (dropOne c (s.arrived c value mutilated)) := by
  have state := (s.recogniser_arrived_state c value mutilated).trans h
  unfold State.arrived at state ⊢
  simp only [recogniserChar, state, Recogniser.read]

end Handling

/-! ### The text FIFO (R32 to R34) -/

/-- The text FIFO has room for a character (R32). -/
abbrev CircuitState.room (x : CircuitState) : Prop := fifoCharacters x.textFifo < 16

/-- One more character reaches the maximum text length (R33). -/
abbrev State.reachesLimit (s : State) (r : RecordIdx) : Prop := s.maxLength ≤ (s.message r).textLength + 1

theorem offerText_spec {s : State} {c : Circuit} {r : RecordIdx} (ch : RxChar)
    (filling : (s.recogniser c).filling = some r) :
    s.onlyPair (offerText c ch s) c r [] ∧
    (offerText c ch s).circuit c = { s.circuit c with
      textFifo := if (s.circuit c).room then (s.circuit c).textFifo ++ [.char ch.value r] else (s.circuit c).textFifo
      recogniser := { s.recogniser c with
        state := if (s.circuit c).room ∧ ¬ s.reachesLimit r then (s.recogniser c).state else .discard
        discardCause := if (s.circuit c).room ∧ ¬ s.reachesLimit r then (s.recogniser c).discardCause
          else if (s.circuit c).room then some .length else some .poolEmpty
        dropped := if (s.circuit c).room ∧ ¬ s.reachesLimit r then (s.recogniser c).dropped
          else if (s.circuit c).room then 0 else 1 } } ∧
    (offerText c ch s).message r = { s.message r with
      textLength := (s.message r).textLength + (if (s.circuit c).room then 1 else 0)
      flags := { (s.message r).flags with
        lengthLimit := (s.message r).flags.lengthLimit || decide ((s.circuit c).room ∧ s.reachesLimit r)
        truncated := (s.message r).flags.truncated || decide (¬ (s.circuit c).room) } } := by
  have filling' : (s.circuit c).recogniser.filling = some r := filling
  by_cases room : (s.circuit c).room
  · obtain ⟨w, hw⟩ : ∃ w, w = (s.setCircuit c { s.circuit c with
        textFifo := (s.circuit c).textFifo ++ [.char ch.value r] }).setMessage r
        { s.message r with textLength := (s.message r).textLength + 1 } := ⟨_, rfl⟩
    have pair : s.onlyPair w c r [] := hw ▸ ((s.onlyPair_refl c r).set _).setRecord rfl
    have circuit : w.circuit c = { s.circuit c with textFifo := (s.circuit c).textFifo ++ [.char ch.value r] } := by
      simp [hw]
    have message : w.message r = { s.message r with textLength := (s.message r).textLength + 1 } := by simp [hw]
    have form : offerText c ch s = if s.reachesLimit r then
        (w.updFlags r fun f => { f with lengthLimit := true }).updRecogniser c fun q =>
          { q with state := .discard, discardCause := some .length, dropped := 0 } else w := by
      have most : w.maxLength = s.maxLength := by
        rw [hw]
        rfl
      have room' : fifoCharacters (s.circuit c).textFifo < Config.textFifoPlaces := room
      simp only [offerText, filling, room', if_true, State.updFifo_eq, State.updMessage_eq, State.message_setCircuit, ← hw,
        most, message]
    by_cases limit : s.reachesLimit r
    · rw [form, if_pos limit]
      refine ⟨(pair.setRecord (m := { w.message r with flags := { (w.message r).flags with lengthLimit := true } })
        rfl).set _, ?_, ?_⟩
      · simp [circuit, room, limit, State.recogniser]
      · simp [message, room, limit]
    · rw [form, if_neg limit]
      exact ⟨pair, by simp [circuit, room, limit, State.recogniser], by simp [message, room, limit]⟩
  · have form : offerText c ch s = (s.updFlags r fun f => { f with truncated := true }).updRecogniser c fun q =>
        { q with state := .discard, discardCause := some .poolEmpty, dropped := 1 } := by
      have full : ¬ fifoCharacters (s.circuit c).textFifo < Config.textFifoPlaces := room
      simp only [offerText, filling, full, if_false]
    rw [form]
    refine ⟨((s.onlyPair_refl c r).setRecord (m := { s.message r with
      flags := { (s.message r).flags with truncated := true } }) rfl).set _, ?_, ?_⟩
    · simp [room, State.recogniser]
    · simp [room]

/-! ### A start of message (R22, R46) -/

/-- The step from s to t grants record r and changes circuit c, and hands over the reports listed. -/
abbrev State.grantedTo (s t : State) (c : Circuit) (r : RecordIdx) (reports : List (Place × Word × ReportKind)) : Prop :=
  t = { s with
    circuits := t.circuits, circuitDirty := t.circuitDirty, messages := t.messages
    messageDirty := t.messageDirty, officeDirty := true
    reports := (s.raiseAll reports).reports, pool := { s.pool with suspension := t.suspendedNow } } ∧
  s.othersKept t c ∧ ∀ r' : RecordIdx, r' ≠ r → t.message r' = s.message r'

/-- A grant after a change of the circuit with its reports. -/
theorem State.grantedTo_after {s t u : State} {c : Circuit} {r : RecordIdx} {l : List (Place × Word × ReportKind)}
    (h : s.onlyCircuit t c l) (grants : t.grantedTo u c r []) : s.grantedTo u c r l := by
  obtain ⟨form', others', records⟩ := grants
  have message := State.message_of_onlyCircuit h
  obtain ⟨form, others⟩ := h
  refine ⟨?_, fun d hd => ⟨(others' d hd).1.trans (others d hd).1, (others' d hd).2.trans (others d hd).2⟩,
    fun r' hr => (records r' hr).trans (message r')⟩
  rw [State.eq_iff] at form form' ⊢
  simp_all

theorem State.lowestFree_congr {s t : State} (messages : t.messages = s.messages) : t.lowestFree = s.lowestFree := by
  simp only [State.lowestFree, State.message, messages]
  rfl

theorem State.lowestFree_free {s : State} {r : RecordIdx} (h : s.lowestFree = some r) : (s.message r).state = .free := by
  simpa using List.find?_some h

theorem State.suspensionLawful_congr {s t : State} (pool : t.pool = s.pool) (shadow : t.shadow = s.shadow)
    (messages : t.messages = s.messages) (lawful : s.suspensionLawful) : t.suspensionLawful := by
  have same : t.suspendedNow = s.suspendedNow := State.suspendedNow_congr (by rw [pool]) shadow
    (by rw [State.freeCount, messages, State.freeCount])
  rw [State.suspensionLawful, pool, same]
  exact lawful

/-- A FREE record used is one record fewer (R46). -/
theorem State.freeCount_of_grant {s t : State} {r : RecordIdx} {m : Message} (messages : t.messages = s.messages.set r m)
    (free : (s.message r).state = .free) (used : m.state ≠ .free) : t.freeCount + 1 = s.freeCount := by
  have inTable : r.val < s.messages.toList.length := by simp
  have here : decide ((s.messages.toList[r.val]'inTable).state = .free) = true := by
    simpa [State.message] using free
  have positive : 0 < s.freeCount := List.countP_pos_iff.mpr ⟨_, List.getElem_mem inTable, here⟩
  rw [State.freeCount, messages]
  have after : decide (m.state = .free) = false := decide_eq_false used
  simp only [Vector.toList_set, List.countP_set inTable, here, after]
  exact Nat.sub_add_cancel positive

/-- The recogniser with a heading line begun (R22). -/
def Recogniser.begins (q : Recogniser) (r : RecordIdx) (silence : Option Nat) : Recogniser :=
  { q with
    state := .headingLine, headPos := .afterSom false, lineStart := false, held := [], somCount := 0
    filling := some r, silence := silence }

theorem startMessage_grants {s : State} {c : Circuit} {r : RecordIdx} (lawful : s.suspensionLawful)
    (lowest : s.lowestFree = some r) :
    s.grantedTo (startMessage c s) c r [] ∧
    (startMessage c s).circuit c = { s.circuit c with recogniser := (s.recogniser c).begins r (s.silenceLoad c) } ∧
    (startMessage c s).message r = { Message.free (s.message r).generation with
      state := .filling, origin := some (.circuit c (s.inboundStation c)), hold := true } ∧
    (startMessage c s).freeCount + 1 = s.freeCount := by
  have free := State.lowestFree_free lowest
  have granted := grantRecord_eq (.circuit c (s.inboundStation c)) lawful free (state := .filling) (by decide)
  obtain ⟨g, hg⟩ : ∃ g, g = grantRecord r .filling (.circuit c (s.inboundStation c)) s := ⟨_, rfl⟩
  obtain ⟨b, hb⟩ : ∃ b, b = g.suspendedNow := ⟨_, rfl⟩
  have form : startMessage c s = g.setCircuit c { g.circuit c with
      recogniser := (g.recogniser c).begins r (s.silenceLoad c) } := by
    simp only [startMessage, lowest, hg]
    rfl
  rw [← hg, ← hb] at granted
  have messages : g.messages = s.messages.set r ((s.message r).granted .filling (.circuit c (s.inboundStation c))) := by
    rw [granted]
  have circuits : g.circuits = s.circuits := by rw [granted]
  have circuit : g.circuit c = s.circuit c := State.circuit_congr circuits c
  obtain ⟨record, records⟩ := State.message_of_set messages
  have suspension : (startMessage c s).suspendedNow = b := by
    rw [form, hb]
    rfl
  refine ⟨⟨?_, fun d other => ?_, fun r' other => ?_⟩, ?_, ?_, ?_⟩
  · rw [suspension, form, State.eq_iff, granted]
    simp
  · rw [form]
    exact ⟨(g.circuit_setCircuit_ne _ other).trans (State.circuit_congr circuits d),
      (g.circuitDirty_setCircuit_ne c _ other).trans (by rw [granted]; rfl)⟩
  · rw [form]
    exact records r' other
  · rw [form, State.circuit_setCircuit_self, circuit, State.recogniser, circuit, State.recogniser]
  · rw [form]
    exact record
  · rw [form]
    exact State.freeCount_of_grant messages free nofun

/-- With no record FREE the start of message is a discard (R22). -/
theorem startMessage_discards {s : State} {c : Circuit} (full : s.lowestFree = none) :
    s.onlyCircuit (startMessage c s) c [] ∧
    (startMessage c s).circuit c = { s.circuit c with
      recogniser := { s.recogniser c with
        state := .discard, discardCause := some .tableFull, filling := none, dropped := 0
        held := [], somCount := 0, silence := s.silenceLoad c } } := by
  have form : startMessage c s = s.updRecogniser c fun q =>
      { q with
        state := .discard, discardCause := some .tableFull, filling := none, dropped := 0
        held := [], somCount := 0, silence := s.silenceLoad c } := by
    simp only [startMessage, full]
  rw [form]
  exact ⟨s.onlyCircuit_setCircuit c _, by simp [State.recogniser]⟩

end Sys2Proof.Machine
end

section
/-! PROOF. Text characters and the start of a message on a point circuit (R21, R22, R32 to R34). -/

namespace Sys2Proof.Machine

/-! ### The character on a point circuit in service -/

/-- A character in service on a point circuit, up to its receive state: a change of the line unit, and then the
recogniser. -/
theorem exec_characterReceived_point {s : State} {c : Circuit} {mark : Bool} {k : Nat} {bits : RelayChar}
    (receiver : (s.circuit c).line.receiver = .assembling k bits) (due : 95 ≤ k) (service : s.inService c = true)
    (point : s.isParty c = false) :
    exec (.characterReceived c mark) s = .next (recogniserChar c (sampledValue mark bits) (!mark) (s.sampled c mark)) := by
  rw [exec_characterReceived receiver due, handOn_point _ _ ((s.inService_sampled c mark).trans service)
    ((s.isParty_sampled c mark).trans point)]

section Sampled

variable {s : State} {c : Circuit} (mark : Bool) (quiet : s.quietWord c)
include quiet

theorem State.recogniser_sampled : (s.sampled c mark).recogniser c = s.recogniser c := by
  rw [State.recogniser, (s.sampled_quiet mark quiet).2.1, State.recogniser]

theorem State.message_sampled (r : RecordIdx) : (s.sampled c mark).message r = s.message r :=
  State.message_of_onlyCircuit (s.sampled_quiet mark quiet).1 r

theorem State.silenceLoad_sampled : (s.sampled c mark).silenceLoad c = s.silenceLoad c := by
  rw [State.silenceLoad, (s.sampled_quiet mark quiet).2.1, State.silenceLoad]

theorem State.maxLength_sampled : (s.sampled c mark).maxLength = s.maxLength := by
  rw [State.maxLength, State.shadowAt, (s.sampled_quiet mark quiet).1.1, State.maxLength, State.shadowAt]

/-- The character that has arrived, with a record being filled. -/
theorem State.arrived_sampled {r : RecordIdx} (value : RelayChar) (filling : (s.recogniser c).filling = some r) :
    s.onlyPair ((s.sampled c mark).arrived c value (!mark)) c r [] ∧
    ((s.sampled c mark).arrived c value (!mark)).circuit c = { s.circuit c with
      line := ((s.sampled c mark).circuit c).line
      recogniser := (s.recogniser c).arrival value (!mark) (s.silenceLoad c) } ∧
    ((s.sampled c mark).arrived c value (!mark)).message r = (s.message r).counted (!mark) := by
  obtain ⟨only, at', -, -⟩ := s.sampled_quiet mark quiet
  have recogniser := s.recogniser_sampled mark quiet
  obtain ⟨pair, circuit, message⟩ := State.arrived_filling (s := s.sampled c mark) (c := c) (r := r) value (!mark)
    (by rw [recogniser, filling])
  rw [recogniser, s.silenceLoad_sampled mark quiet] at circuit
  rw [s.message_sampled mark quiet] at message
  exact ⟨State.onlyPair_trans (l := []) (State.onlyPair_of_onlyCircuit r only) pair, circuit.trans (by rw [at']), message⟩

/-- The character that has arrived, changing no record. -/
theorem State.arrived_sampled_plain (value : RelayChar) (h : mark = true ∨ (s.recogniser c).filling = none) :
    s.onlyCircuit ((s.sampled c mark).arrived c value (!mark)) c [] ∧
    ((s.sampled c mark).arrived c value (!mark)).circuit c = { s.circuit c with
      line := ((s.sampled c mark).circuit c).line
      recogniser := (s.recogniser c).arrival value (!mark) (s.silenceLoad c) } := by
  obtain ⟨only, at', -, -⟩ := s.sampled_quiet mark quiet
  have recogniser := s.recogniser_sampled mark quiet
  obtain ⟨change, circuit⟩ := State.arrived_plain (s := s.sampled c mark) (c := c) (mutilated := !mark) value
    (h.imp (by simp) (by rw [recogniser]; exact id))
  rw [recogniser, s.silenceLoad_sampled mark quiet] at circuit
  exact ⟨State.onlyCircuit_trans (l := []) only change, circuit.trans (by rw [at'])⟩

end Sampled

/-! ### A text character (R32 to R34) -/

theorem State.maxLength_of_onlyPair {s t : State} {c : Circuit} {r : RecordIdx} {l : List (Place × Word × ReportKind)}
    (h : s.onlyPair t c r l) : t.maxLength = s.maxLength := by
  rw [h.1]
  rfl

/-- An LF among the characters (R20). -/
theorem RxChar.isCommon_read (q : Recogniser) (mark : Bool) (bits value : RelayChar) :
    (q.read (sampledValue mark bits) (!mark)).isCommon value = (mark && decide (bits = value)) := by
  cases mark <;> simp [RxChar.isCommon, Recogniser.read, sampledValue]

/-- In TEXT a character is offered to the text FIFO, and an LF sets line start (R20, R32). -/
theorem ordinaryChar_text {s : State} {c : Circuit} (counted : Bool) (ch : RxChar) (text : (s.recogniser c).state = .text) :
    ordinaryChar c counted ch s = if ch.isCommon chLF then
      (offerText c ch s).updRecogniser c fun q => { q with lineStart := true } else offerText c ch s := by
  simp only [ordinaryChar, text]

/-- The circuit once an LF has set line start (R20). -/
theorem State.circuit_lineStart {u : State} {c : Circuit} (isLF : Bool) (away : (u.recogniser c).lineStart = false) :
    (if isLF = true then u.updRecogniser c fun q => { q with lineStart := true } else u).circuit c =
      { u.circuit c with recogniser := { (u.circuit c).recogniser with lineStart := isLF } } := by
  cases isLF with
  | true => exact u.circuit_setCircuit_self _ _
  | false =>
    have away' : (u.circuit c).recogniser.lineStart = false := away
    rw [if_neg Bool.false_ne_true, ← away']

theorem watchChar_away {s : State} {c : Circuit} (counted : Bool) (ch : RxChar)
    (away : (s.recogniser c).lineStart = false) : watchChar c counted ch s = ordinaryChar c counted ch s := by
  simp [watchChar, away]

/-! ### The third H (R21) -/

/-- The letter H read in letters case (R21). -/
theorem Recogniser.read_chH {q : Recogniser} (letters : q.shift = .letters) :
    q.read chH false = { value := chH, mutilated := false, shift := .letters } := by
  have kept : shiftAfter .letters chH false = .letters := by decide
  rw [Recogniser.read, letters, kept]

theorem huntChar_thirdH {s : State} {c : Circuit} (lineStart : (s.recogniser c).lineStart = true)
    (two : (s.recogniser c).somCount = 2) :
    huntChar c { value := chH, mutilated := false, shift := .letters } s =
      startMessage c (s.updRecogniser c fun q => { q with somCount := 0 }) := by
  have notLF : RxChar.isCommon { value := chH, mutilated := false, shift := .letters } chLF = false := by decide
  have notShift : RxChar.isShift { value := chH, mutilated := false, shift := .letters } = false := by decide
  have isH : RxChar.isTheLetter { value := chH, mutilated := false, shift := .letters } chH = true := by decide
  simp [huntChar, notLF, notShift, isH, lineStart, two]

theorem State.partyStation_point {s : State} {c : Circuit} {t : Option StationIdx} (point : s.isParty c = false) :
    s.partyStation c t = none := by
  rw [State.partyStation, if_neg (by rw [point]; exact Bool.false_ne_true)]

end Sys2Proof.Machine

open Sys2Proof Sys2Proof.Machine

/-- Settles O14: the character in TEXT, away from line start. -/
theorem textCharacterEntersTheFifo : Obligations.TextCharacterEntersTheFifo := by
  unfold Obligations.TextCharacterEntersTheFifo
  intro c mark s k bits r receiver due service point text away filling quiet
  obtain ⟨pair, circuit, message⟩ := s.arrived_sampled mark quiet (sampledValue mark bits) filling
  obtain ⟨w, hw⟩ : ∃ w, w = (s.sampled c mark).arrived c (sampledValue mark bits) (!mark) := ⟨_, rfl⟩
  rw [← hw] at pair circuit message
  have recogniser : w.recogniser c = (s.recogniser c).arrival (sampledValue mark bits) (!mark) (s.silenceLoad c) := by
    rw [State.recogniser, circuit]
  obtain ⟨ch, hch⟩ : ∃ ch, ch = (s.recogniser c).read (sampledValue mark bits) (!mark) := ⟨_, rfl⟩
  have isLF : ch.isCommon chLF = (mark && decide (bits = 1)) := hch ▸ RxChar.isCommon_read _ mark bits chLF
  have runs : exec (.characterReceived c mark) s = .next (ordinaryChar c false ch w) := by
    rw [exec_characterReceived_point receiver due service point, recogniserChar_watched _ _
      (.inr (.inl (by rw [s.recogniser_sampled mark quiet, text]))), s.recogniser_sampled mark quiet, ← hw, ← hch,
      watchChar_away]
    rw [recogniser]
    exact away
  obtain ⟨offers, at', record⟩ := offerText_spec (s := w) (c := c) (r := r) ch (by rw [recogniser]; exact filling)
  have text' : (w.recogniser c).state = .text := by rw [recogniser]; exact text
  obtain ⟨t, ht⟩ : ∃ t, t = ordinaryChar c false ch w := ⟨_, rfl⟩
  have form := ordinaryChar_text false ch text'
  rw [← ht] at runs form
  have both : s.onlyPair t c r [] := by
    rw [form]
    split
    · exact (State.onlyPair_trans (l := []) pair offers).set _
    · exact State.onlyPair_trans (l := []) pair offers
  have limit : w.reachesLimit r ↔ s.maxLength ≤ (s.message r).textLength + 1 := by
    rw [State.reachesLimit, State.maxLength_of_onlyPair pair, message]
    rfl
  have fifo : (w.circuit c).textFifo = (s.circuit c).textFifo := by rw [circuit]
  have room : (w.circuit c).room ↔ fifoCharacters (s.circuit c).textFifo < 16 := by rw [CircuitState.room, fifo]
  have value : ch.value = sampledValue mark bits := by rw [hch]; rfl
  have afterwards : t.circuit c = { (offerText c ch w).circuit c with
      recogniser := { ((offerText c ch w).circuit c).recogniser with
        lineStart := mark && decide (bits = 1) } } := by
    rw [form, isLF]
    exact State.circuit_lineStart _ (by rw [State.recogniser, at', recogniser]; exact away)
  obtain ⟨u, hu⟩ : ∃ u, u = offerText c ch w := ⟨_, rfl⟩
  rw [← hu] at afterwards at' record offers form
  have hunting : (t.circuit c).line = ((s.sampled c mark).circuit c).line := by rw [afterwards, at', circuit]
  refine ⟨t, runs, both.1, both.2.1, both.2.2, ?_, ?_, ?_⟩
  · rw [hunting]
    exact (s.sampled_quiet mark quiet).2.2.1
  · simp only [room, limit, value, recogniser] at at'
    have text'' : ((s.recogniser c).arrival (sampledValue mark bits) (!mark) (s.silenceLoad c)).state = .text := text
    rw [afterwards, at', circuit]
    simp only [text'']
    rfl
  · have same : t.message r = u.message r := by
      rw [form]
      split <;> rfl
    rw [same, record]
    simp only [room, limit, message]
    cases mark <;> simp [Message.counted]

/-- Settles O15: the third H of a start of message. -/
theorem startOfMessageGrantsTheLowestFreeRecord : Obligations.StartOfMessageGrantsTheLowestFreeRecord := by
  unfold Obligations.StartOfMessageGrantsTheLowestFreeRecord
  intro c s k receiver due service point hunt letters lineStart third quiet
  obtain ⟨only, circuit⟩ := s.arrived_sampled_plain true quiet chH (.inl rfl)
  obtain ⟨w, hw⟩ : ∃ w, w = (s.sampled c true).arrived c chH false := ⟨_, rfl⟩
  have kept : shiftAfter (s.recogniser c).shift chH false = (s.recogniser c).shift := by rw [letters]; decide
  rw [Bool.not_true, ← hw] at only circuit
  obtain ⟨u, hu⟩ : ∃ u, u = w.updRecogniser c fun q => { q with somCount := 0 } := ⟨_, rfl⟩
  have recogniser : w.recogniser c = (s.recogniser c).arrival chH false (s.silenceLoad c) := by
    rw [State.recogniser, circuit]
  have runs : exec (.characterReceived c true) s = .next (startMessage c u) := by
    rw [exec_characterReceived_point receiver due service point]
    refine congrArg Host.Outcome.next ?_
    change recogniserChar c chH false (s.sampled c true) = _
    rw [recogniserChar_hunt _ _ (by rw [s.recogniser_sampled true quiet, hunt]), s.recogniser_sampled true quiet,
      Recogniser.read_chH letters, ← hw, huntChar_thirdH, hu]
    · rw [recogniser]
      exact lineStart
    · rw [recogniser]
      exact third
  have change : s.onlyCircuit u c [] := hu ▸ only.set _
  have at' : u.circuit c = { s.circuit c with
      line := ((s.sampled c true).circuit c).line
      recogniser := { s.recogniser c with somCount := 0, silence := s.silenceLoad c } } := by
    rw [hu, State.updRecogniser_eq, State.circuit_setCircuit_self, circuit, Recogniser.arrival, kept]
  have silence : u.silenceLoad c = s.silenceLoad c := by rw [State.silenceLoad, at', State.silenceLoad]
  have lowest' : u.lowestFree = s.lowestFree := State.lowestFree_congr (by rw [change.1])
  refine ⟨fun r lawful lowest => ?_, fun full => ?_⟩
  · have lawful' : u.suspensionLawful := State.suspensionLawful_congr (by rw [change.1]) (by rw [change.1])
      (by rw [change.1]) lawful
    obtain ⟨grants, at'', record, fewer⟩ := startMessage_grants (c := c) lawful' (lowest'.trans lowest)
    obtain ⟨form, others, records⟩ := State.grantedTo_after change grants
    refine ⟨_, runs, form, others, ?_, records, ?_, ?_⟩
    · rw [at'', silence, State.recogniser, at']
      rfl
    · rw [record, State.inboundStation, State.partyStation_point (by rw [State.isParty, at']; exact point),
        State.message_of_onlyCircuit change]
    · rw [fewer, State.freeCount, State.freeCount, change.1]
  · obtain ⟨discards, at''⟩ := startMessage_discards (c := c) (lowest'.trans full)
    refine ⟨_, runs, State.onlyCircuit_trans (l := []) change discards, ?_⟩
    rw [at'', silence, State.recogniser, at']

end

section
/-! PROOF. The line-start watch, its patterns and the silence timer on a point circuit (R27 to R30, R35, R36). -/

namespace Sys2Proof.Machine

/-! ### The table of the watch (R27) -/

/-- The letters among the held characters. -/
def heldLetters (held : List RxChar) : List RxChar := held.filter fun h => !h.isShift

/-- The character goes on with the pattern that the first letter held has chosen (R27). -/
def RxChar.goesOn (ch : RxChar) (held : List RxChar) : Bool :=
  (ch.isTheLetter chE || ch.isTheLetter chQ || ch.isTheLetter chH) &&
    (heldLetters held).head?.all fun h => decide (h.value = ch.value)

theorem watchStep_eq (held : List RxChar) (ch : RxChar) : watchStep held ch =
    if 8 ≤ held.length then .break
    else if ch.isShift then .hold
    else if ch.goesOn held then
      if (heldLetters held).length + 1 = patternLength ch.value then .complete ch.value else .hold
    else .break := by
  cases letters : held.filter fun h => !h.isShift with
  | nil => simp [watchStep, RxChar.goesOn, heldLetters, letters]
  | cons h rest => simp [watchStep, RxChar.goesOn, heldLetters, letters]

/-! ### The watched character as it is read -/

theorem RxChar.isShift_read (q : Recogniser) (mark : Bool) (bits : RelayChar) :
    (q.read (sampledValue mark bits) (!mark)).isShift = true ↔ mark = true ∧ (bits = 4 ∨ bits = 5) := by
  cases mark <;> simp [RxChar.isShift, Recogniser.read, sampledValue, chLtrs, chFigs, or_comm]

theorem RxChar.goesOn_read (q : Recogniser) (mark : Bool) (bits : RelayChar) (held : List RxChar) :
    (q.read (sampledValue mark bits) (!mark)).goesOn held = true ↔
      mark = true ∧ q.shift = .letters ∧ (bits = 10 ∨ bits = 22 ∨ bits = 13) ∧
        ∀ h ∈ (heldLetters held).head?, h.value = bits := by
  cases mark with
  | false => simp [RxChar.goesOn, RxChar.isTheLetter, Recogniser.read]
  | true =>
    by_cases letter : bits = chE ∨ bits = chQ ∨ bits = chH
    · rcases letter with rfl | rfl | rfl <;>
        simp [RxChar.goesOn, RxChar.isTheLetter, Recogniser.read, sampledValue, shiftAfter, chLtrs, chFigs, chE, chQ, chH,
          Option.all_eq_true]
    · obtain ⟨notE, notQ, notH⟩ := not_or.mp letter |>.imp id not_or.mp
      have other : ¬ (bits = 10 ∨ bits = 22 ∨ bits = 13) := letter
      simp only [other, false_and, and_false, iff_false]
      simp [RxChar.goesOn, RxChar.isTheLetter, Recogniser.read, sampledValue, notE, notQ, notH]

/-! ### A watched character (R27, R35) -/

/-- A receive state under the line-start watch (R27). -/
abbrev RxState.isWatched (state : RxState) : Prop := state = .destLine ∨ state = .text ∨ state = .skipHeading

/-- The state in which the line-start watch takes a character; a discard has counted it (R35). -/
def State.watching (s : State) (c : Circuit) (mark : Bool) (bits : RelayChar) : State :=
  let w := (s.sampled c mark).arrived c (sampledValue mark bits) (!mark)
  if (s.recogniser c).state = .discard then dropOne c w else w

/-- The recogniser as the line-start watch takes the character. -/
def Recogniser.watching (q : Recogniser) (value : RelayChar) (mutilated : Bool) (silence : Option Nat) : Recogniser :=
  { q.arrival value mutilated silence with
    dropped := if q.state = .discard then min (q.dropped + 1) 65535 else q.dropped }

section Watched

variable {s : State} {c : Circuit} {mark : Bool} {bits : RelayChar}

theorem recogniserChar_watching (quiet : s.quietWord c)
    (h : (s.recogniser c).state.isWatched ∨ (s.recogniser c).state = .discard) :
    recogniserChar c (sampledValue mark bits) (!mark) (s.sampled c mark) =
      watchChar c (decide ((s.recogniser c).state = .discard)) ((s.recogniser c).read (sampledValue mark bits) (!mark))
        (s.watching c mark bits) := by
  have recogniser := s.recogniser_sampled mark quiet
  rw [State.watching]
  rcases h with watched | discard
  · have running : (s.recogniser c).state ≠ .discard := by
      rcases watched with h | h | h <;> rw [h] <;> decide
    rw [recogniserChar_watched _ _ (by rw [recogniser]; exact watched), recogniser, if_neg running, decide_eq_false running]
  · rw [recogniserChar_discard _ _ (by rw [recogniser]; exact discard), recogniser, if_pos discard, decide_eq_true discard]

theorem exec_characterReceived_watched {k : Nat} (receiver : (s.circuit c).line.receiver = .assembling k bits)
    (due : 95 ≤ k) (service : s.inService c = true) (point : s.isParty c = false) (quiet : s.quietWord c)
    (h : (s.recogniser c).state.isWatched ∨ (s.recogniser c).state = .discard) :
    exec (.characterReceived c mark) s = .next (watchChar c (decide ((s.recogniser c).state = .discard))
      ((s.recogniser c).read (sampledValue mark bits) (!mark)) (s.watching c mark bits)) := by
  rw [exec_characterReceived_point receiver due service point, recogniserChar_watching quiet h]

/-- The character that has arrived, changing no record. -/
theorem State.watching_plain (quiet : s.quietWord c) (h : mark = true ∨ (s.recogniser c).filling = none) :
    s.onlyCircuit (s.watching c mark bits) c [] ∧
    (s.watching c mark bits).circuit c = { s.circuit c with
      line := ((s.sampled c mark).circuit c).line
      recogniser := (s.recogniser c).watching (sampledValue mark bits) (!mark) (s.silenceLoad c) } := by
  obtain ⟨only, circuit⟩ := s.arrived_sampled_plain mark quiet (sampledValue mark bits) h
  unfold State.watching Recogniser.watching
  by_cases discard : (s.recogniser c).state = .discard
  · simp only [if_pos discard]
    exact ⟨only.set _, by rw [dropOne, State.updRecogniser_eq, State.circuit_setCircuit_self, circuit]; rfl⟩
  · simp only [if_neg discard]
    exact ⟨only, circuit⟩

end Watched

section Watch

variable {s : State} {c : Circuit} {counted : Bool} {ch : RxChar} (lineStart : (s.recogniser c).lineStart = true)
include lineStart

theorem watchChar_holds (step : watchStep (s.recogniser c).held ch = .hold) :
    watchChar c counted ch s = s.updRecogniser c fun q => { q with held := q.held ++ [ch] } := by
  simp [watchChar, lineStart, step]

theorem watchChar_completes {letter : RelayChar} (step : watchStep (s.recogniser c).held ch = .complete letter) :
    watchChar c counted ch s = patternDone c letter s := by
  simp [watchChar, lineStart, step]

theorem watchChar_breaks (step : watchStep (s.recogniser c).held ch = .break) :
    watchChar c counted ch s = breakPattern c counted ch s := by
  simp [watchChar, lineStart, step]

end Watch

/-! ### EEEE (R28, R35) -/

theorem State.lossReports_congr {s t : State} {c : Circuit}
    (cause : (t.recogniser c).discardCause = (s.recogniser c).discardCause)
    (dropped : (t.recogniser c).dropped = (s.recogniser c).dropped)
    (filling : (t.recogniser c).filling = (s.recogniser c).filling) (station : t.inboundStation c = s.inboundStation c)
    (tag : ∀ r, t.tag r = s.tag r) : t.lossReports c = s.lossReports c := by
  simp only [State.lossReports, cause, dropped, filling, station, tag]

/-- The record whose message EEEE has ended: in the destination line it has no destination (R28). -/
def Message.endedIn (m : Message) (state : RxState) : Message :=
  { m with flags := { m.flags with
      headingError := if state = .destLine then some .noDestination else m.flags.headingError } }

theorem CircuitState.ended_eq (x : CircuitState) (cause : EndCause) (lineStart : Bool) : x.ended cause lineStart =
    { x with
      textFifo := x.textFifo ++ (match x.recogniser.filling with
        | some r => [.ending r cause]
        | none => [])
      recogniser := { x.recogniser with
        state := .hunt, lineStart := lineStart, held := [], somCount := 0, filling := none, discardCause := none
        dropped := 0 } } := by
  cases filling : x.recogniser.filling <;> simp [CircuitState.ended, filling]

/-- A message with a record and no discard has ended (R38). -/
theorem CircuitState.ended_filling {x : CircuitState} {r : RecordIdx} (cause : EndCause) (lineStart : Bool)
    (filling : x.recogniser.filling = some r) (running : x.recogniser.discardCause = none) :
    x.ended cause lineStart = { x with
      textFifo := x.textFifo ++ [.ending r cause]
      recogniser := { x.recogniser with
        state := .hunt, lineStart := lineStart, held := [], somCount := 0, filling := none, dropped := 0 } } := by
  simp [CircuitState.ended, filling, running]

/-- In the destination line the record is marked before its message ends (R28). -/
theorem patternEom_filling {s : State} {c : Circuit} {r : RecordIdx} (filling : (s.recogniser c).filling = some r) :
    patternEom c s = endMessage c .eom false (if (s.recogniser c).state = .destLine then
      s.updFlags r fun f => { f with headingError := some .noDestination } else s) := by
  cases state : (s.recogniser c).state <;> simp [patternEom, filling, state]

/-- The mark of a message without a destination (R28). -/
theorem State.markEnded_spec (s : State) (c : Circuit) (r : RecordIdx) (state : RxState) :
    s.onlyPair (if state = .destLine then s.updFlags r fun f => { f with headingError := some .noDestination } else s)
      c r [] ∧
    (if state = .destLine then s.updFlags r fun f => { f with headingError := some .noDestination } else s).circuit c =
      s.circuit c ∧
    (if state = .destLine then s.updFlags r fun f => { f with headingError := some .noDestination } else s).message r =
      (s.message r).endedIn state := by
  by_cases h : state = .destLine
  · rw [if_pos h, Message.endedIn, if_pos h]
    exact ⟨(s.onlyPair_refl c r).setRecord (m := { s.message r with
      flags := { (s.message r).flags with headingError := some .noDestination } }) rfl, rfl, by simp⟩
  · rw [if_neg h, Message.endedIn, if_neg h]
    exact ⟨s.onlyPair_refl c r, rfl, rfl⟩

/-! ### QQQQ (R29) -/

/-- The circuit whose message a cancel has withdrawn: its characters have left the text FIFO (R29). -/
def CircuitState.withdrawn (x : CircuitState) (r : RecordIdx) : CircuitState :=
  { x with
    textFifo := x.textFifo.filter fun i => match i with
      | .char _ r' => decide (r' ≠ r)
      | .ending _ _ => true
    recogniser := { x.recogniser with
      state := .hunt, lineStart := false, held := [], somCount := 0, filling := none, discardCause := none
      dropped := 0 } }

theorem CircuitState.withdrawn_running {x : CircuitState} {r : RecordIdx} (running : x.recogniser.discardCause = none) :
    x.withdrawn r = { x with
      textFifo := (x.withdrawn r).textFifo
      recogniser := { x.recogniser with
        state := .hunt, lineStart := false, held := [], somCount := 0, filling := none, dropped := 0 } } := by
  simp [CircuitState.withdrawn, running]

/-- The block writer without a cancelled record's waiting take and pending text write (R29, log 19). -/
def BlockWriter.without (w : BlockWriter) (c : Circuit) (r : RecordIdx) : BlockWriter :=
  { w with
    waiting := w.waiting.filter fun r' => decide (r' ≠ r)
    writes := w.writes.filter fun x => decide (x.after ≠ .leave c r) }

/-- A sender's cancel reaches the block writer, before it lets go of the record (R29). -/
def State.cancelling (s : State) (c : Circuit) (r : RecordIdx) : State :=
  let s := s.updFifo c fun fifo => fifo.filter fun i => match i with
    | .char _ r' => decide (r' ≠ r)
    | .ending _ _ => true
  { s with writer := s.writer.without c r }

/-- During a take for it the block writer frees a cancelled record later (R74). -/
theorem cancelFilling_taking {s : State} {c : Circuit} {r : RecordIdx} (take : s.pool.take = some r) :
    cancelFilling c r s = (s.cancelling c r).setFill r { s.fill r with cancelled := true } := by
  unfold cancelFilling
  exact if_pos (by simp [take])

/-- A cancelled record that the block writer holds no more, up to the judgement of the pool (R57). -/
def State.freedCancelled (s : State) (r : RecordIdx) : State :=
  (s.freedAs r (s.message r).originPlace .cancelledIn).setFill r .empty

theorem freeCancelled_eq (r : RecordIdx) (s : State) : freeCancelled r s = poolChanged (s.freedCancelled r) := rfl

theorem cancelFilling_free {s : State} {c : Circuit} {r : RecordIdx} (take : s.pool.take ≠ some r)
    (joined : ∀ w ∈ s.writer.writes, w.after ≠ .joined r) :
    cancelFilling c r s = poolChanged ((s.cancelling c r).freedCancelled r) := by
  rw [← freeCancelled_eq]
  unfold cancelFilling
  refine if_neg ?_
  simp only [State.updFifo_eq, Bool.or_eq_true, List.any_eq_true, List.mem_filter, decide_eq_true_eq, not_or, not_exists]
  exact ⟨fun held => take (of_decide_eq_true held), fun w h => joined w h.1.1 h.2⟩

/-- What the block writer's letting go of a cancelled record changes (R45, R57, R73). -/
theorem State.freedCancelled_spec {s : State} {r : RecordIdx} (used : (s.message r).state ≠ .free)
    (lawful : s.mapsLawful) :
    s.freedCancelled r = { s with
      messages := (s.freedCancelled r).messages, messageDirty := (s.freedCancelled r).messageDirty
      officeDirty := true, fills := s.fills.set r .empty, owners := (s.freedCancelled r).owners
      reports := (s.raise (s.message r).originPlace (s.tag r) .cancelledIn).reports
      pool := (match (s.message r).head with
        | none => s.pool
        | some h => s.pool.append h (s.message r).tail (s.message r).blockCount) } ∧
    (∀ r', r' ≠ r → (s.freedCancelled r).message r' = s.message r') ∧
    (s.freedCancelled r).message r = Message.free (nextGeneration r (s.message r).generation) ∧
    ∀ b, (s.freedCancelled r).owner b =
      if (s.message r).head.isSome ∧ s.owner b = .message r then .pool else s.owner b := by
  obtain ⟨form, others, record, owners⟩ := State.freedAs_spec (s.message r).originPlace .cancelledIn used lawful
  refine ⟨?_, others, record, owners⟩
  rw [State.eq_iff] at form ⊢
  simp_all [State.freedCancelled, State.setFill] <;> rfl

/-- A cancel withdraws the message's characters and its writes (R29). -/
theorem State.cancelling_spec (s : State) (c : Circuit) (r : RecordIdx) :
    s.cancelling c r = { s with
      circuits := (s.cancelling c r).circuits, circuitDirty := (s.cancelling c r).circuitDirty
      writer := s.writer.without c r } ∧
    s.othersKept (s.cancelling c r) c ∧
    (s.cancelling c r).circuit c = { s.circuit c with textFifo := ((s.circuit c).withdrawn r).textFifo } := by
  obtain ⟨form, others⟩ := s.onlyCircuit_setCircuit c
    { s.circuit c with textFifo := ((s.circuit c).withdrawn r).textFifo }
  refine ⟨?_, others, s.circuit_setCircuit_self c _⟩
  rw [State.eq_iff] at form ⊢
  simp_all [State.cancelling]

/-- A cancel after a change of the circuit. -/
theorem State.cancelling_after {s v : State} {c : Circuit} (r : RecordIdx) (h : s.onlyCircuit v c []) :
    v.cancelling c r = { s with
      circuits := (v.cancelling c r).circuits, circuitDirty := (v.cancelling c r).circuitDirty
      writer := s.writer.without c r } ∧
    s.othersKept (v.cancelling c r) c := by
  obtain ⟨form', others', -⟩ := v.cancelling_spec c r
  obtain ⟨form, others⟩ := h
  refine ⟨?_, fun d hd => ⟨(others' d hd).1.trans (others d hd).1, (others' d hd).2.trans (others d hd).2⟩⟩
  rw [State.eq_iff] at form form' ⊢
  simp_all

theorem State.setFill_after {s t : State} {w : BlockWriter} (r : RecordIdx) (f : Fill)
    (form : t = { s with circuits := t.circuits, circuitDirty := t.circuitDirty, writer := w }) :
    t.setFill r f = { s with
      circuits := (t.setFill r f).circuits, circuitDirty := (t.setFill r f).circuitDirty, writer := w
      fills := s.fills.set r f } := by
  rw [State.eq_iff] at form ⊢
  simp_all [State.setFill]

/-- A cancel after the character has arrived. -/
theorem State.withdraws_after {s w t : State} {c : Circuit} {b : BlockWriter} {f : Vector Fill 128}
    (h : s.onlyCircuit w c [])
    (form : t = { w with circuits := t.circuits, circuitDirty := t.circuitDirty, writer := b, fills := f })
    (others : w.othersKept t c) :
    t = { s with circuits := t.circuits, circuitDirty := t.circuitDirty, writer := b, fills := f } ∧
    s.othersKept t c := by
  obtain ⟨form', others'⟩ := h
  refine ⟨?_, fun d hd => ⟨(others d hd).1.trans (others' d hd).1, (others d hd).2.trans (others' d hd).2⟩⟩
  rw [State.eq_iff] at form form' ⊢
  simp_all

/-- The frame of a record let go, in terms of the state before the cancel. -/
theorem State.freed_frame {s z u : State} {b : BlockWriter} {f : Vector Fill 128} {p : Pool} {reports : ReportWriter}
    (form : z = { s with circuits := z.circuits, circuitDirty := z.circuitDirty, writer := b })
    (form' : u = { z with
      messages := u.messages, messageDirty := u.messageDirty, officeDirty := true, fills := f
      owners := u.owners, reports := reports, pool := p }) :
    u = { s with
      circuits := u.circuits, circuitDirty := u.circuitDirty, writer := b, messages := u.messages
      messageDirty := u.messageDirty, officeDirty := true, fills := f, owners := u.owners, reports := reports
      pool := p } := by
  rw [State.eq_iff] at form form' ⊢
  simp_all

/-- The letting go of a cancelled record, in terms of the state before the cancel. -/
theorem State.freedCancelled_after {s z : State} {r : RecordIdx} {b : BlockWriter}
    (form : z = { s with circuits := z.circuits, circuitDirty := z.circuitDirty, writer := b })
    (used : (s.message r).state ≠ .free) (lawful : s.mapsLawful) :
    z.freedCancelled r = { s with
      circuits := (z.freedCancelled r).circuits, circuitDirty := (z.freedCancelled r).circuitDirty, writer := b
      messages := (z.freedCancelled r).messages, messageDirty := (z.freedCancelled r).messageDirty
      officeDirty := true, fills := s.fills.set r .empty, owners := (z.freedCancelled r).owners
      reports := (s.raise (s.message r).originPlace (s.tag r) .cancelledIn).reports
      pool := (match (s.message r).head with
        | none => s.pool
        | some h => s.pool.append h (s.message r).tail (s.message r).blockCount) } ∧
    (z.freedCancelled r).circuits = z.circuits ∧ (z.freedCancelled r).circuitDirty = z.circuitDirty ∧
    (∀ r', r' ≠ r → (z.freedCancelled r).message r' = s.message r') ∧
    (z.freedCancelled r).message r = Message.free (nextGeneration r (s.message r).generation) ∧
    ∀ b, (z.freedCancelled r).owner b =
      if (s.message r).head.isSome ∧ s.owner b = .message r then .pool else s.owner b := by
  have message (r : RecordIdx) : z.message r = s.message r := by rw [form]; rfl
  have owner (b : Nat) : z.owner b = s.owner b := by rw [form]; rfl
  have lawful' : z.mapsLawful := by rw [form]; exact lawful
  have tag : z.tag r = s.tag r := by rw [State.tag, message, State.tag]
  have fills : z.fills = s.fills := by rw [form]
  have pool : z.pool = s.pool := by rw [form]
  have reports : (z.raise (s.message r).originPlace (s.tag r) .cancelledIn).reports =
      (s.raise (s.message r).originPlace (s.tag r) .cancelledIn).reports := by
    rw [State.raise_reports_eq, State.raise_reports_eq, form]
  obtain ⟨form', others, record, owners⟩ := State.freedCancelled_spec (s := z) (r := r) (by rw [message]; exact used) lawful'
  simp only [message, owner, tag, reports, fills, pool] at form' others record owners
  refine ⟨?_, by rw [form'], by rw [form'], others, record, owners⟩
  exact State.freed_frame form form'

section Patterns

variable {s : State} {c : Circuit} {r : RecordIdx}

/-- A pattern consumes its held characters (R27). -/
theorem State.consumed_spec (s : State) (c : Circuit) :
    s.onlyCircuit (s.updRecogniser c fun q => { q with held := [] }) c [] ∧
    (s.updRecogniser c fun q => { q with held := [] }).circuit c =
      { s.circuit c with recogniser := { s.recogniser c with held := [] } } :=
  ⟨s.onlyCircuit_setCircuit c _, s.circuit_setCircuit_self c _⟩

theorem patternDone_chE (c : Circuit) (s : State) :
    patternDone c chE s = patternEom c (s.updRecogniser c fun q => { q with held := [] }) := by
  rw [patternDone, if_pos rfl]

theorem patternDone_chQ (c : Circuit) (s : State) :
    patternDone c chQ s = patternCancel c (s.updRecogniser c fun q => { q with held := [] }) := by
  have other : chQ ≠ chE := by decide
  rw [patternDone, if_neg other, if_pos rfl]

theorem patternDone_chH (c : Circuit) (s : State) :
    patternDone c chH s = patternSom c (s.updRecogniser c fun q => { q with held := [] }) := by
  have notE : chH ≠ chE := by decide
  have notQ : chH ≠ chQ := by decide
  rw [patternDone, if_neg notE, if_neg notQ]

/-- QQQQ, up to the cancel that goes to the block writer (R29). -/
theorem patternDone_cancel (filling : (s.recogniser c).filling = some r)
    (running : (s.recogniser c).discardCause = none) :
    ∃ v, patternDone c chQ s = dialogueEnding c .senderCancel false (cancelFilling c r v) ∧
    s.onlyCircuit v c [] ∧
    v.circuit c = { s.circuit c with recogniser := ((s.circuit c).withdrawn r).recogniser } := by
  obtain ⟨change, at'⟩ := s.consumed_spec c
  obtain ⟨u, hu⟩ : ∃ u, u = s.updRecogniser c fun q => { q with held := [] } := ⟨_, rfl⟩
  rw [← hu] at change at'
  obtain ⟨ends, at''⟩ := discardEnd_spec c u
  rw [State.lossReports_of_length (.inl (by rw [State.recogniser, at']; exact running))] at ends
  obtain ⟨w, hw⟩ : ∃ w, w = discardEnd c u := ⟨_, rfl⟩
  rw [← hw] at ends at''
  have filling' : (w.recogniser c).filling = some r := by
    rw [State.recogniser, at'', at']
    exact filling
  refine ⟨w.updRecogniser c fun q =>
    { q with state := .hunt, lineStart := false, held := [], somCount := 0, filling := none }, ?_,
    (State.onlyCircuit_trans (l := []) change ends).set _, ?_⟩
  · rw [patternDone_chQ, ← hu, patternCancel, ← hw]
    simp only [filling']
  · rw [State.updRecogniser_eq, State.circuit_setCircuit_self, at'', at']
    rfl

variable (point : s.isParty c = false)
include point

theorem patternDone_eom (filling : (s.recogniser c).filling = some r) (running : (s.recogniser c).discardCause = none) :
    s.onlyPair (patternDone c chE s) c r [] ∧
    (patternDone c chE s).circuit c = (s.circuit c).ended .eom false ∧
    (patternDone c chE s).message r = (s.message r).endedIn (s.recogniser c).state := by
  obtain ⟨change, at'⟩ := s.consumed_spec c
  obtain ⟨u, hu⟩ : ∃ u, u = s.updRecogniser c fun q => { q with held := [] } := ⟨_, rfl⟩
  rw [← hu] at change at'
  have recogniser : u.recogniser c = { s.recogniser c with held := [] } := by rw [State.recogniser, at']
  obtain ⟨marks, same, record⟩ := u.markEnded_spec c r (s.recogniser c).state
  have form : patternDone c chE s = endMessage c .eom false (if (s.recogniser c).state = .destLine then
      u.updFlags r fun f => { f with headingError := some .noDestination } else u) := by
    rw [patternDone_chE, ← hu, patternEom_filling (r := r) (by rw [recogniser]; exact filling), recogniser]
  obtain ⟨w, hw⟩ : ∃ w, w = if (s.recogniser c).state = .destLine then
    u.updFlags r fun f => { f with headingError := some .noDestination } else u := ⟨_, rfl⟩
  rw [← hw] at form marks same record
  have circuit : w.circuit c = { s.circuit c with recogniser := { s.recogniser c with held := [] } } := same.trans at'
  obtain ⟨ends, at''⟩ := endMessage_point (s := w) (c := c) .eom false (by rw [State.isParty, circuit]; exact point)
  rw [State.lossReports_of_length (.inl (by rw [State.recogniser, circuit]; exact running))] at ends
  refine ⟨?_, ?_, ?_⟩
  · rw [form]
    exact State.onlyPair_trans (l := []) (State.onlyPair_trans (l := []) (State.onlyPair_of_onlyCircuit r change) marks)
      (State.onlyPair_of_onlyCircuit r ends)
  · rw [form, at'', circuit]
    rfl
  · rw [form, State.message_of_onlyCircuit ends, record, State.message_of_onlyCircuit change]

/-- EEEE in a discard: its RECEIVE_LOSS, and the ending if there is a record (R28, R35). -/
theorem patternDone_eom_discard (discard : (s.recogniser c).state = .discard) :
    s.onlyCircuit (patternDone c chE s) c (s.lossReports c) ∧
    (patternDone c chE s).circuit c = (s.circuit c).ended .eom false := by
  obtain ⟨change, at'⟩ := s.consumed_spec c
  obtain ⟨u, hu⟩ : ∃ u, u = s.updRecogniser c fun q => { q with held := [] } := ⟨_, rfl⟩
  rw [← hu] at change at'
  have discard' : (u.recogniser c).state = .discard := by rw [State.recogniser, at', discard]
  have form : patternDone c chE s = endMessage c .eom false u := by
    rw [patternDone_chE, ← hu]
    simp only [patternEom, discard']
  obtain ⟨ends, at''⟩ := endMessage_point (s := u) (c := c) .eom false (by rw [State.isParty, at']; exact point)
  have recogniser : u.recogniser c = { s.recogniser c with held := [] } := by rw [State.recogniser, at']
  have reports : u.lossReports c = s.lossReports c := by
    refine State.lossReports_congr (by rw [recogniser]) (by rw [recogniser]) (by rw [recogniser]) ?_ fun r => ?_
    · rw [State.inboundStation, State.partyStation, State.isParty, at']
      rfl
    · rw [State.tag, State.message_of_onlyCircuit change, State.tag]
  rw [reports] at ends
  rw [form]
  exact ⟨State.onlyCircuit_trans (l := []) change ends, by rw [at'', at']; rfl⟩

/-- The fourth Q during a take (R29, R74). -/
theorem patternDone_cancel_taking (filling : (s.recogniser c).filling = some r)
    (running : (s.recogniser c).discardCause = none) (take : s.pool.take = some r) :
    patternDone c chQ s = { s with
      circuits := (patternDone c chQ s).circuits, circuitDirty := (patternDone c chQ s).circuitDirty
      writer := s.writer.without c r, fills := s.fills.set r { s.fill r with cancelled := true } } ∧
    s.othersKept (patternDone c chQ s) c ∧ (patternDone c chQ s).circuit c = (s.circuit c).withdrawn r := by
  obtain ⟨v, runs, change, at'⟩ := patternDone_cancel filling running
  obtain ⟨form, others⟩ := State.cancelling_after r change
  have fill : v.fill r = s.fill r := by rw [change.1]; rfl
  have circuit : ((v.cancelling c r).setFill r { v.fill r with cancelled := true }).circuit c =
      (s.circuit c).withdrawn r := by
    refine (v.cancelling_spec c r).2.2.trans ?_
    rw [at']
    rfl
  rw [cancelFilling_taking (by rw [change.1]; exact take), dialogueEnding_point _ _ (.inl
    (by rw [State.isParty, circuit]; exact point))] at runs
  rw [fill] at runs circuit
  rw [runs]
  exact ⟨State.setFill_after r _ form, others, circuit⟩

/-- The fourth Q otherwise: the block writer lets go of the record at once (R29, R57). -/
theorem patternDone_cancel_free (filling : (s.recogniser c).filling = some r)
    (running : (s.recogniser c).discardCause = none) (take : s.pool.take ≠ some r)
    (joined : ∀ w ∈ s.writer.writes, w.after ≠ .joined r) :
    ∃ z, patternDone c chQ s = poolChanged (z.freedCancelled r) ∧
    z = { s with circuits := z.circuits, circuitDirty := z.circuitDirty, writer := s.writer.without c r } ∧
    s.othersKept z c ∧ z.circuit c = (s.circuit c).withdrawn r := by
  obtain ⟨v, runs, change, at'⟩ := patternDone_cancel filling running
  obtain ⟨form, others⟩ := State.cancelling_after r change
  have circuit : (v.cancelling c r).circuit c = (s.circuit c).withdrawn r := by
    refine (v.cancelling_spec c r).2.2.trans ?_
    rw [at']
    rfl
  rw [cancelFilling_free (by rw [change.1]; exact take) (by rw [change.1]; exact joined),
    dialogueEnding_point _ _ (.inl _)] at runs
  · exact ⟨_, runs, form, others, circuit⟩
  · rw [← freeCancelled_eq, KeepsLines.refl.freeCancelled.isParty, State.isParty, circuit]
    exact point

/-! ### HHH (R30) -/

theorem patternDone_som {next : RecordIdx} (lawful : s.suspensionLawful) (lowest : s.lowestFree = some next)
    (running : (s.recogniser c).discardCause = none) :
    s.grantedTo (patternDone c chH s) c next [] ∧
    (patternDone c chH s).circuit c = { (s.circuit c).ended .missingEnd true with
      recogniser := ((s.circuit c).ended .missingEnd true).recogniser.begins next (s.silenceLoad c) } ∧
    (patternDone c chH s).message next = { Message.free (s.message next).generation with
      state := .filling, origin := some (.circuit c none), hold := true } := by
  obtain ⟨change, at'⟩ := s.consumed_spec c
  obtain ⟨u, hu⟩ : ∃ u, u = s.updRecogniser c fun q => { q with held := [] } := ⟨_, rfl⟩
  rw [← hu] at change at'
  obtain ⟨ends, at''⟩ := endMessage_point (s := u) (c := c) .missingEnd true (by rw [State.isParty, at']; exact point)
  rw [State.lossReports_of_length (.inl (by rw [State.recogniser, at']; exact running))] at ends
  obtain ⟨w, hw⟩ : ∃ w, w = endMessage c .missingEnd true u := ⟨_, rfl⟩
  have form : patternDone c chH s = startMessage c w := by rw [patternDone_chH, ← hu, patternSom, hw]
  rw [← hw] at ends at''
  have before : s.onlyCircuit w c [] := State.onlyCircuit_trans (l := []) change ends
  have circuit : w.circuit c = (s.circuit c).ended .missingEnd true := by
    rw [at'', at']
    rfl
  obtain ⟨grants, at3, record, -⟩ := startMessage_grants (s := w) (c := c)
    (State.suspensionLawful_congr (by rw [before.1]) (by rw [before.1]) (by rw [before.1]) lawful)
    ((State.lowestFree_congr (by rw [before.1])).trans lowest)
  rw [form]
  refine ⟨State.grantedTo_after before grants, ?_, ?_⟩
  · rw [at3, State.recogniser, State.silenceLoad, circuit]
    rfl
  · rw [record, State.message_of_onlyCircuit before, State.inboundStation,
      State.partyStation_point (by rw [State.isParty, circuit]; exact point)]

end Patterns

/-! ### A broken pattern in TEXT (R27, R32) -/

section Break

variable {s : State} {c : Circuit} {r : RecordIdx} (counted : Bool)

theorem fifoCharacters_char (fifo : List FifoItem) (value : RelayChar) (r : RecordIdx) :
    fifoCharacters (fifo ++ [.char value r]) = fifoCharacters fifo + 1 := by
  simp [fifoCharacters]

theorem fifoCharacters_chars (fifo : List FifoItem) (held : List RxChar) (r : RecordIdx) :
    fifoCharacters (fifo ++ held.map fun h => .char h.value r) = fifoCharacters fifo + held.length := by
  induction held generalizing fifo with
  | nil => simp
  | cons h held ih =>
    rw [List.map_cons, List.append_cons, ih, fifoCharacters_char, List.length_cons]
    omega

/-- A text character that enters the text FIFO with places to spare (R20, R32). -/
theorem ordinaryChar_enters (ch : RxChar) (text : (s.recogniser c).state = .text)
    (filling : (s.recogniser c).filling = some r) (room : (s.circuit c).room) (below : ¬ s.reachesLimit r) :
    s.onlyPair (ordinaryChar c counted ch s) c r [] ∧
    (ordinaryChar c counted ch s).circuit c = { s.circuit c with
      textFifo := (s.circuit c).textFifo ++ [.char ch.value r]
      recogniser := { s.recogniser c with lineStart := ch.isCommon chLF || (s.recogniser c).lineStart } } ∧
    (ordinaryChar c counted ch s).message r = { s.message r with textLength := (s.message r).textLength + 1 } := by
  obtain ⟨pair, circuit, message⟩ := offerText_spec (s := s) ch filling
  simp only [room, below, not_false_eq_true, and_true, if_true, not_true_eq_false, decide_false, Bool.or_false,
    and_false] at circuit message
  rw [ordinaryChar_text counted ch text]
  cases ch.isCommon chLF with
  | false => exact ⟨pair, circuit, message⟩
  | true => exact ⟨pair.set _, by rw [if_pos rfl, State.updRecogniser_eq, State.circuit_setCircuit_self, circuit]; rfl, message⟩

/-- Text characters released in order, with places to spare for each (R27, R32). -/
theorem ordinaryChars_enter (held : List RxChar) (text : (s.recogniser c).state = .text)
    (filling : (s.recogniser c).filling = some r) (room : fifoCharacters (s.circuit c).textFifo + held.length ≤ 16)
    (below : (s.message r).textLength + held.length < s.maxLength) :
    ∃ lineStart, s.onlyPair (held.foldl (fun s h => ordinaryChar c counted h s) s) c r [] ∧
    (held.foldl (fun s h => ordinaryChar c counted h s) s).circuit c = { s.circuit c with
      textFifo := (s.circuit c).textFifo ++ held.map fun h => .char h.value r
      recogniser := { s.recogniser c with lineStart := lineStart } } ∧
    (held.foldl (fun s h => ordinaryChar c counted h s) s).message r = { s.message r with
      textLength := (s.message r).textLength + held.length } := by
  induction held generalizing s with
  | nil => exact ⟨(s.recogniser c).lineStart, s.onlyPair_refl c r, by simp; rfl, rfl⟩
  | cons h held ih =>
    rw [List.length_cons] at room below
    obtain ⟨pair, circuit, message⟩ := ordinaryChar_enters (s := s) (c := c) counted h text filling
      (by rw [CircuitState.room]; omega) (by rw [State.reachesLimit]; omega)
    obtain ⟨w, hw⟩ : ∃ w, w = ordinaryChar c counted h s := ⟨_, rfl⟩
    rw [← hw] at pair circuit message
    obtain ⟨lineStart, pair', circuit', message'⟩ := ih (s := w) (by rw [State.recogniser, circuit]; exact text)
      (by rw [State.recogniser, circuit]; exact filling)
      (by rw [circuit, fifoCharacters_char]; omega)
      (by rw [message, State.maxLength_of_onlyPair pair]; dsimp only; omega)
    rw [List.foldl_cons, ← hw]
    refine ⟨lineStart, State.onlyPair_trans (l := []) pair pair', ?_, ?_⟩
    · rw [circuit', State.recogniser, circuit]
      simp
    · rw [message', message, List.length_cons]
      simp only [Nat.add_assoc, Nat.add_comm 1]

theorem breakPattern_text (ch : RxChar) (text : (s.recogniser c).state = .text)
    (filling : (s.recogniser c).filling = some r)
    (room : fifoCharacters (s.circuit c).textFifo + (s.recogniser c).held.length < 16)
    (below : (s.message r).textLength + (s.recogniser c).held.length + 1 < s.maxLength) :
    s.onlyPair (breakPattern c counted ch s) c r [] ∧
    (breakPattern c counted ch s).circuit c = { s.circuit c with
      textFifo := (s.circuit c).textFifo ++ ((s.recogniser c).held.map fun h => .char h.value r) ++ [.char ch.value r]
      recogniser := { s.recogniser c with held := [], lineStart := ch.isCommon chLF } } ∧
    (breakPattern c counted ch s).message r = { s.message r with
      textLength := (s.message r).textLength + (s.recogniser c).held.length + 1 } := by
  obtain ⟨change, at'⟩ := s.consumed_spec c
  obtain ⟨u, hu⟩ : ∃ u, u = s.updRecogniser c fun q => { q with held := [] } := ⟨_, rfl⟩
  rw [← hu] at change at'
  have message : u.message r = s.message r := State.message_of_onlyCircuit change r
  obtain ⟨lineStart, enter, at'', message'⟩ := ordinaryChars_enter (s := u) (c := c) (r := r) counted
    (s.recogniser c).held (by rw [State.recogniser, at', text]) (by rw [State.recogniser, at', filling])
    (by rw [at']; exact Nat.le_of_lt room)
    (by rw [message, State.maxLength_of_onlyPair (State.onlyPair_of_onlyCircuit r change)]; exact Nat.lt_of_succ_lt below)
  obtain ⟨w, hw⟩ : ∃ w, w = (s.recogniser c).held.foldl (fun s h => ordinaryChar c counted h s) u := ⟨_, rfl⟩
  rw [← hw] at enter at'' message'
  obtain ⟨z, hz⟩ : ∃ z, z = w.updRecogniser c fun q => { q with lineStart := false } := ⟨_, rfl⟩
  have form : breakPattern c counted ch s = ordinaryChar c counted ch z := by rw [breakPattern, releaseHeld, ← hu, ← hw, ← hz]
  have before : s.onlyPair z c r [] :=
    hz ▸ (State.onlyPair_trans (l := []) (State.onlyPair_of_onlyCircuit r change) enter).set _
  have circuit : z.circuit c = { s.circuit c with
      textFifo := (s.circuit c).textFifo ++ (s.recogniser c).held.map fun h => .char h.value r
      recogniser := { s.recogniser c with held := [], lineStart := false } } := by
    rw [hz, State.updRecogniser_eq, State.circuit_setCircuit_self, at'', State.recogniser, at']
  have record : z.message r = { s.message r with
      textLength := (s.message r).textLength + (s.recogniser c).held.length } := by
    rw [hz, ← message]
    exact message'
  obtain ⟨pair, at3, message3⟩ := ordinaryChar_enters (s := z) (c := c) (r := r) counted ch
    (by rw [State.recogniser, circuit]; exact text) (by rw [State.recogniser, circuit]; exact filling)
    (by rw [circuit, CircuitState.room, fifoCharacters_chars]; exact room)
    (by rw [State.reachesLimit, record, State.maxLength_of_onlyPair before]; exact Nat.not_le.mpr below)
  rw [form]
  refine ⟨State.onlyPair_trans (l := []) before pair, ?_, ?_⟩
  · rw [at3, State.recogniser, circuit, Bool.or_false]
  · rw [message3, record]

end Break

/-! ### A completed pattern (R27) -/

section Completed

variable {s : State} {c : Circuit} {k : Nat} {letter : RelayChar}

/-- The letter that completes a pattern, up to what the pattern does. -/
theorem recogniserChar_pattern (quiet : s.quietWord c) (lineStart : (s.recogniser c).lineStart = true)
    (running : (s.recogniser c).state.isWatched ∨ (s.recogniser c).state = .discard)
    (short : (s.recogniser c).held.length < 8) (letters : (s.recogniser c).shift = .letters)
    (pattern : letter = 10 ∨ letter = 22 ∨ letter = 13)
    (first : ∀ h ∈ (heldLetters (s.recogniser c).held).head?, h.value = letter)
    (full : (heldLetters (s.recogniser c).held).length + 1 = patternLength letter) :
    ∃ w, recogniserChar c letter false (s.sampled c true) = patternDone c letter w ∧ s.onlyCircuit w c [] ∧
    w.circuit c = { s.circuit c with
      line := ((s.sampled c true).circuit c).line
      recogniser := (s.recogniser c).watching letter false (s.silenceLoad c) } ∧
    w.recogniser c = (s.recogniser c).watching letter false (s.silenceLoad c) := by
  have goesOn := (RxChar.goesOn_read (s.recogniser c) true letter (s.recogniser c).held).mpr ⟨rfl, letters, pattern, first⟩
  have notShift : ¬ ((s.recogniser c).read (sampledValue true letter) (!true)).isShift = true := by
    rw [RxChar.isShift_read]
    rintro ⟨-, rfl | rfl⟩ <;> simp at pattern
  obtain ⟨only, at'⟩ := State.watching_plain (s := s) (c := c) (bits := letter) quiet (.inl rfl)
  have recogniser : (s.watching c true letter).recogniser c = (s.recogniser c).watching letter false (s.silenceLoad c) := by
    rw [State.recogniser, at']
    rfl
  refine ⟨_, (recogniserChar_watching (mark := true) (bits := letter) quiet running).trans
    (watchChar_completes (letter := letter) ?_ ?_), only, at', recogniser⟩
  · rw [recogniser]
    exact lineStart
  · rw [recogniser]
    change watchStep (s.recogniser c).held _ = _
    rw [watchStep_eq, if_neg (Nat.not_le.mpr short), if_neg notShift, if_pos goesOn]
    exact if_pos full

/-- The character that completes a pattern, up to what the pattern does. -/
theorem exec_pattern (receiver : (s.circuit c).line.receiver = .assembling k letter) (due : 95 ≤ k)
    (service : s.inService c = true) (point : s.isParty c = false) (quiet : s.quietWord c)
    (lineStart : (s.recogniser c).lineStart = true)
    (running : (s.recogniser c).state.isWatched ∨ (s.recogniser c).state = .discard)
    (short : (s.recogniser c).held.length < 8) (letters : (s.recogniser c).shift = .letters)
    (pattern : letter = 10 ∨ letter = 22 ∨ letter = 13)
    (first : ∀ h ∈ (heldLetters (s.recogniser c).held).head?, h.value = letter)
    (full : (heldLetters (s.recogniser c).held).length + 1 = patternLength letter) :
    ∃ w, exec (.characterReceived c true) s = .next (patternDone c letter w) ∧ s.onlyCircuit w c [] ∧
    w.circuit c = { s.circuit c with
      line := ((s.sampled c true).circuit c).line
      recogniser := (s.recogniser c).watching letter false (s.silenceLoad c) } ∧
    w.recogniser c = (s.recogniser c).watching letter false (s.silenceLoad c) ∧ w.isParty c = false := by
  obtain ⟨w, runs, only, at', recogniser⟩ := recogniserChar_pattern quiet lineStart running short letters pattern first full
  refine ⟨w, ?_, only, at', recogniser, by rw [State.isParty, at']; exact point⟩
  exact (exec_characterReceived_point receiver due service point).trans (congrArg Host.Outcome.next runs)

end Completed

/-! ### Silence (R36) -/

section Silence

variable {s : State} {c : Circuit} (due : (s.recogniser c).silence = some 0)
include due

theorem silenceExpiry_hunt (hunt : (s.recogniser c).state = .hunt) :
    silenceExpiry c s = s.updRecogniser c fun q => { q with silence := none } := by
  have stays : ((s.updRecogniser c fun q => { q with silence := none }).recogniser c).state = .hunt := by
    rw [State.updRecogniser_eq, State.recogniser, State.circuit_setCircuit_self]
    exact hunt
  rw [silenceExpiry, if_pos due]
  exact if_pos stays

/-- With no character held the silence ends the message at once. -/
theorem silenceExpiry_ends (receiving : (s.recogniser c).state ≠ .hunt) (held : (s.recogniser c).held = []) :
    ∃ w, silenceExpiry c s = endMessage c .silence true (markTruncated c w) ∧ s.onlyCircuit w c [] ∧
    w.circuit c = { s.circuit c with recogniser := { s.recogniser c with silence := none } } := by
  obtain ⟨u, hu⟩ : ∃ u, u = s.updRecogniser c fun q => { q with silence := none } := ⟨_, rfl⟩
  have change : s.onlyCircuit u c [] := hu ▸ s.onlyCircuit_setCircuit c _
  have at' : u.circuit c = { s.circuit c with recogniser := { s.recogniser c with silence := none } } := by
    rw [hu, State.updRecogniser_eq, State.circuit_setCircuit_self]
    rfl
  have receiving' : (u.recogniser c).state ≠ .hunt := by rw [State.recogniser, at']; exact receiving
  have held' : (u.recogniser c).held = [] := by rw [State.recogniser, at']; exact held
  have release (counted : Bool) : releaseHeld c counted u = u.updRecogniser c fun q => { q with held := [] } := by
    rw [releaseHeld, held']
    rfl
  obtain ⟨consumes, at''⟩ := u.consumed_spec c
  refine ⟨_, ?_, State.onlyCircuit_trans (l := []) change consumes, ?_⟩
  · rw [silenceExpiry, if_pos due, ← hu, ← release]
    exact if_neg receiving'
  · rw [at'', State.recogniser, at', ← held]

end Silence

end Sys2Proof.Machine

open Sys2Proof Sys2Proof.Machine

/-- Settles O16: the silence timer, and the outcomes of the line-start watch one by one. -/
theorem silenceEndsTheMessage : Obligations.SilenceEndsTheMessage := by
  unfold Obligations.SilenceEndsTheMessage
  refine ⟨fun c s due => ⟨silenceExpiry c s, rfl, fun hunt => ?_, fun r text filling held running point => ?_,
    fun discard filling held cause point => ?_⟩, ?_⟩
  · rw [silenceExpiry_hunt due hunt]
    exact ⟨s.onlyCircuit_setCircuit c _, s.circuit_setCircuit_self c _⟩
  · obtain ⟨w, form, only, at'⟩ := silenceExpiry_ends due (by rw [text]; decide) held
    have filling' : (w.recogniser c).filling = some r := by rw [State.recogniser, at']; exact filling
    obtain ⟨u, hu⟩ : ∃ u, u = w.updFlags r fun f => { f with truncated := true } := ⟨_, rfl⟩
    have marks : markTruncated c w = u := by rw [hu, markTruncated, filling']
    have circuit : u.circuit c = { s.circuit c with recogniser := { s.recogniser c with silence := none } } := by
      rw [hu]
      exact at'
    have pair : s.onlyPair u c r [] := hu ▸ (State.onlyPair_of_onlyCircuit r only).setRecord rfl
    obtain ⟨ends, at''⟩ := endMessage_point (s := u) (c := c) .silence true (by rw [State.isParty, circuit]; exact point)
    rw [State.lossReports_of_length (.inl (by rw [State.recogniser, circuit]; exact running))] at ends
    obtain ⟨form', others, records⟩ := State.onlyPair_trans (l := []) pair (State.onlyPair_of_onlyCircuit r ends)
    rw [form, marks]
    refine ⟨form', others, ?_, records, ?_⟩
    · rw [at'', circuit, CircuitState.ended_filling _ _ (by exact filling) (by exact running), ← held]
    · rw [State.message_of_onlyCircuit ends, hu, State.updFlags_eq, State.message_setMessage_self,
        State.message_of_onlyCircuit only]
  · obtain ⟨w, form, only, at'⟩ := silenceExpiry_ends due (by rw [discard]; decide) held
    have recogniser : w.recogniser c = { s.recogniser c with silence := none } := by rw [State.recogniser, at']
    have marks : markTruncated c w = w := by rw [markTruncated, recogniser, filling]
    have point' : w.isParty c = false := by rw [State.isParty, at']; exact point
    obtain ⟨ends, at''⟩ := endMessage_point (s := w) (c := c) .silence true point'
    rw [State.lossReports_tableFull (by rw [recogniser]; exact cause), recogniser, State.inboundStation,
      State.partyStation_point point'] at ends
    rw [form, marks]
    refine ⟨State.onlyCircuit_trans (l := []) only ends, ?_⟩
    rw [at'', at', CircuitState.ended_eq]
    simp [held, filling]
  intro c mark s k bits receiver due service point quiet lineStart x q letters arrival counted isShift fits completes
    watched
  refine ⟨?_, ?_, ?_, ?_, ?_, ?_⟩
  · intro running short step
    have atMark : mark = true := step.elim And.left fun h => h.1.1
    subst atMark
    obtain ⟨only, at'⟩ := State.watching_plain (s := s) (c := c) (bits := bits) quiet (.inl rfl)
    have recogniser : (s.watching c true bits).recogniser c = q.watching bits false (s.silenceLoad c) := by
      rw [State.recogniser, at']
      rfl
    have holds : watchStep q.held (q.read (sampledValue true bits) (!true)) = .hold := by
      rw [watchStep_eq, if_neg (Nat.not_le.mpr short)]
      rcases step with shift | ⟨goesOn, more⟩
      · rw [if_pos ((RxChar.isShift_read q true bits).mpr shift)]
      · have more' : (heldLetters q.held).length + 1 ≠ patternLength (q.read (sampledValue true bits) (!true)).value :=
          Nat.ne_of_lt more
        rw [if_pos ((RxChar.goesOn_read q true bits q.held).mpr goesOn), if_neg more', ite_self]
    have runs := exec_characterReceived_watched (mark := true) receiver due service point quiet running
    rw [watchChar_holds (by rw [recogniser]; exact lineStart) (by rw [recogniser]; exact holds)] at runs
    refine ⟨_, runs, only.set _, ?_⟩
    rw [State.updRecogniser_eq, State.circuit_setCircuit_self, at']
    rfl
  · rintro r ⟨short, ⟨rfl, inLetters, which, first⟩, rfl, full⟩ running filling cause
    obtain ⟨w, runs, only, at', recogniser, point'⟩ := exec_pattern receiver due service point quiet lineStart (.inl running)
      short inLetters which first full
    obtain ⟨pair, at'', record⟩ := patternDone_eom (s := w) (c := c) (r := r) point'
      (by rw [recogniser]; exact filling) (by rw [recogniser]; exact cause)
    obtain ⟨form, others, records⟩ := State.onlyPair_trans (l := []) (State.onlyPair_of_onlyCircuit r only) pair
    refine ⟨patternDone c chE w, runs, form, others, ?_, records, ?_⟩
    · rw [at'', at', CircuitState.ended_filling _ _ (by exact filling) (by exact cause)]
      rfl
    · rw [record, recogniser, State.message_of_onlyCircuit only]
      rfl
  · rintro ⟨short, ⟨rfl, inLetters, which, first⟩, rfl, full⟩ discard cause discarding table
    obtain ⟨w, runs, only, at', recogniser, point'⟩ := exec_pattern receiver due service point quiet lineStart (.inr discard)
      short inLetters which first full
    obtain ⟨ends, at''⟩ := patternDone_eom_discard (s := w) (c := c) point'
      (by rw [recogniser]; exact discard)
    have station : w.inboundStation c = none := State.partyStation_point point'
    have tag (r : RecordIdx) : w.tag r = s.tag r := by rw [State.tag, State.message_of_onlyCircuit only, State.tag]
    have dropped : (w.recogniser c).dropped = min (q.dropped + 1) 65535 := by rw [recogniser]; exact if_pos discard
    have discarding' : (w.recogniser c).discardCause = some cause := by rw [recogniser]; exact discarding
    refine ⟨patternDone c chE w, runs, ?_, ?_⟩
    · have reports := State.onlyCircuit_trans (l := []) only ends
      cases cause with
      | tableFull =>
        rw [State.lossReports_tableFull discarding', station, dropped] at reports
        exact reports
      | poolEmpty =>
        obtain ⟨r, filling⟩ := Option.ne_none_iff_exists'.mp fun none => DiscardCause.noConfusion (table.mp none)
        rw [State.lossReports_poolEmpty (r := r) discarding' (by rw [recogniser]; exact filling), station, dropped,
          tag] at reports
        rw [filling]
        exact reports
      | length =>
        rw [State.lossReports_of_length (.inr discarding')] at reports
        exact reports
    · rw [at'', at', CircuitState.ended_eq]
      rfl
  · rintro r ⟨short, ⟨rfl, inLetters, which, first⟩, rfl, full⟩ running filling cause withdrawn writer m
    obtain ⟨w, runs, only, at', recogniser, point'⟩ := exec_pattern receiver due service point quiet lineStart (.inl running)
      short inLetters which first full
    have filling' : (w.recogniser c).filling = some r := by rw [recogniser]; exact filling
    have cause' : (w.recogniser c).discardCause = none := by rw [recogniser]; exact cause
    refine ⟨fun take => ?_, fun take joined state lawful => ?_⟩
    · obtain ⟨form, others, at''⟩ := patternDone_cancel_taking point' filling' cause' (by rw [only.1]; exact take)
      obtain ⟨form', others'⟩ := State.withdraws_after only form others
      refine ⟨patternDone c chQ w, runs, form'.trans ?_, others', ?_⟩
      · rw [only.1]
        rfl
      · rw [at'', at', CircuitState.withdrawn_running (by exact cause)]
        rfl
    · obtain ⟨z, form, frame, others, at''⟩ := patternDone_cancel_free point' filling' cause'
        (by rw [only.1]; exact take) (by rw [only.1]; exact joined)
      obtain ⟨frame', others'⟩ := State.withdraws_after (f := w.fills) only frame others
      have fills : w.fills = s.fills := by rw [only.1]
      have writer' : w.writer = s.writer := by rw [only.1]
      rw [fills, writer'] at frame'
      obtain ⟨form', circuits, dirty, records, record, owners⟩ := State.freedCancelled_after (r := r) frame'
        (by rw [state]; decide) lawful
      have circuit (d : Circuit) : (z.freedCancelled r).circuit d = z.circuit d := State.circuit_congr circuits d
      refine ⟨z.freedCancelled r, runs.trans (congrArg _ form), form', fun d hd => ?_, ?_, records, record, owners⟩
      · rw [circuit, dirty]
        exact others' d hd
      · rw [circuit, at'', at', CircuitState.withdrawn_running (by exact cause)]
        rfl
  · rintro r next ⟨short, ⟨rfl, inLetters, which, first⟩, rfl, full⟩ running filling cause lawful lowest
    obtain ⟨w, runs, only, at', recogniser, point'⟩ := exec_pattern receiver due service point quiet lineStart (.inl running)
      short inLetters which first full
    have load : w.silenceLoad c = s.silenceLoad c := by rw [State.silenceLoad, at', State.silenceLoad]
    obtain ⟨grants, at'', record⟩ := patternDone_som (s := w) (c := c) (next := next) point'
      (State.suspensionLawful_congr (by rw [only.1]) (by rw [only.1]) (by rw [only.1]) lawful)
      ((State.lowestFree_congr (by rw [only.1])).trans lowest) (by rw [recogniser]; exact cause)
    obtain ⟨form, others, records⟩ := State.grantedTo_after only grants
    refine ⟨patternDone c chH w, runs, form, others, ?_, records, ?_⟩
    · rw [at'', load, at', CircuitState.ended_filling _ _ (by exact filling) (by exact cause)]
      rfl
    · rw [record, State.message_of_onlyCircuit only]
  · intro r step text filling room below
    obtain ⟨pair, at', record⟩ := s.arrived_sampled mark quiet (sampledValue mark bits) filling
    have away : q.state ≠ .discard := by rw [text]; decide
    obtain ⟨w, hw⟩ : ∃ w, w = (s.sampled c mark).arrived c (sampledValue mark bits) (!mark) := ⟨_, rfl⟩
    obtain ⟨ch, hch⟩ : ∃ ch, ch = q.read (sampledValue mark bits) (!mark) := ⟨_, rfl⟩
    have watching : s.watching c mark bits = w := by rw [State.watching, if_neg away, hw]
    rw [← hw] at pair at' record
    have recogniser : w.recogniser c = q.arrival (sampledValue mark bits) (!mark) (s.silenceLoad c) := by
      rw [State.recogniser, at']
    have breaks : watchStep (w.recogniser c).held ch = .break := by
      rw [recogniser]
      change watchStep q.held ch = _
      rcases step with long | ⟨notShift, stops⟩
      · rw [watchStep_eq, if_pos long]
      · have letter : ¬ ch.isShift = true := hch ▸ mt (RxChar.isShift_read q mark bits).mp notShift
        have stops' : ¬ ch.goesOn q.held = true := hch ▸ mt (RxChar.goesOn_read q mark bits q.held).mp stops
        rw [watchStep_eq, if_neg letter, if_neg stops', ite_self]
    have runs := exec_characterReceived_watched (mark := mark) receiver due service point quiet (.inl (.inr (.inl text)))
    rw [watching, ← hch, watchChar_breaks (by rw [recogniser]; exact lineStart) breaks] at runs
    obtain ⟨pair', at'', record'⟩ := breakPattern_text (s := w) (c := c) (r := r) (decide (q.state = .discard)) ch
      (by rw [recogniser]; exact text) (by rw [recogniser]; exact filling)
      (by rw [at', recogniser]; exact room) (by rw [record, State.maxLength_of_onlyPair pair, recogniser]; exact below)
    obtain ⟨form, others, records⟩ := State.onlyPair_trans (l := []) pair pair'
    have value : ch.value = sampledValue mark bits := by rw [hch]; rfl
    have isLF : ch.isCommon chLF = (mark && decide (bits = 1)) := hch ▸ RxChar.isCommon_read _ mark bits chLF
    refine ⟨_, runs, form, others, ?_, records, ?_⟩
    · rw [at'', recogniser, at', isLF, value]
      rfl
    · rw [record', record, recogniser]
      cases mark <;> simp [Message.counted] <;> rfl

end

section
/-! PROOF. The heading line, the destination line and a skipped heading on a point circuit (R20, R23 to R26, R31). -/

namespace Sys2Proof.Machine

/-! ### The character as it is read (R20) -/

section Read

variable (q : Recogniser) (mark : Bool) (bits : RelayChar)

/-- A character of value 6 or more leaves the case as it is (R20). -/
theorem shiftAfter_of_le {now : Shift} {bits : RelayChar} (high : 6 ≤ bits.toNat) : shiftAfter now bits false = now := by
  have notLtrs : bits ≠ chLtrs := by
    rintro rfl
    exact absurd high (by decide)
  have notFigs : bits ≠ chFigs := by
    rintro rfl
    exact absurd high (by decide)
  simp [shiftAfter, notLtrs, notFigs]

theorem RxChar.isLetter_read : (q.read (sampledValue mark bits) (!mark)).isLetter = true ↔
    mark = true ∧ q.shift = .letters ∧ 6 ≤ bits.toNat := by
  cases mark with
  | false => simp [RxChar.isLetter, Recogniser.read]
  | true =>
    by_cases high : 6 ≤ bits.toNat
    · simp [RxChar.isLetter, Recogniser.read, sampledValue, high, shiftAfter_of_le high]
    · simp [RxChar.isLetter, Recogniser.read, sampledValue, high]

/-- A token with one more character (R26). -/
theorem Token.add_read (t : Token) : t.add (q.read (sampledValue mark bits) (!mark)) = match t with
    | .empty => if mark && decide (q.shift = .letters) && decide (6 ≤ bits.toNat) then .one bits else .bad
    | .one a => if mark && decide (q.shift = .letters) && decide (6 ≤ bits.toNat) then .two a bits else .bad
    | .two _ _ | .bad => .bad := by
  obtain ⟨letter, hl⟩ : ∃ letter, letter = (mark && decide (q.shift = .letters) && decide (6 ≤ bits.toNat)) := ⟨_, rfl⟩
  have isLetter : (q.read (sampledValue mark bits) (!mark)).isLetter = letter := by
    rw [hl, Bool.eq_iff_iff, RxChar.isLetter_read]
    simp [and_assoc]
  have value : letter = true → (q.read (sampledValue mark bits) (!mark)).value = bits := fun yes => by
    have atMark : mark = true := by
      rw [hl, Bool.and_assoc, Bool.and_eq_true] at yes
      exact yes.1
    rw [Recogniser.read, atMark]
    rfl
  rw [← hl]
  cases letter with
  | false => cases t <;> simp [Token.add, isLetter]
  | true => cases t <;> simp [Token.add, isLetter, value rfl]

/-- The ten digits in figures case (R20). -/
theorem RxChar.digit?_read (d : Nat) : (q.read (sampledValue mark bits) (!mark)).digit? = some d ↔
    mark = true ∧ q.shift = .figures ∧ d ≤ 9 ∧ bits.toNat = (if d = 0 then 15 else d + 5) := by
  cases mark with
  | false => simp [RxChar.digit?, Recogniser.read]
  | true =>
    by_cases high : 6 ≤ bits.toNat
    · have digits (n : Nat) (low : 6 ≤ n) : n ≤ 15 ∧ (n - 5) % 10 = d ↔ d ≤ 9 ∧ n = if d = 0 then 15 else d + 5 := by
        split <;> omega
      simp [RxChar.digit?, Recogniser.read, sampledValue, high, shiftAfter_of_le high, and_assoc, digits _ high]
    · have low : ¬ (d ≤ 9 ∧ bits.toNat = if d = 0 then 15 else d + 5) := by split <;> omega
      simp [RxChar.digit?, Recogniser.read, sampledValue, high, low]

theorem RxChar.isTheLetter_read {value : RelayChar} (high : 6 ≤ value.toNat) :
    (q.read (sampledValue mark bits) (!mark)).isTheLetter value = true ↔
      mark = true ∧ q.shift = .letters ∧ bits = value := by
  cases mark with
  | false => simp [RxChar.isTheLetter, Recogniser.read]
  | true =>
    by_cases same : bits = value
    · subst same
      simp [RxChar.isTheLetter, Recogniser.read, sampledValue, shiftAfter_of_le high]
    · simp [RxChar.isTheLetter, Recogniser.read, sampledValue, same]

/-- The four precedence letters (R23). -/
theorem RxChar.precedence?_read (p : Precedence) : (q.read (sampledValue mark bits) (!mark)).precedence? = some p ↔
    (mark = true ∧ q.shift = .letters ∧ 6 ≤ bits.toNat) ∧
      (p, bits) ∈ [(Precedence.t, (25 : RelayChar)), (.u, 26), (.r, 23), (.s, 24)] := by
  have table : (if bits = chT then some Precedence.t else if bits = chU then some .u else if bits = chR then some .r
      else if bits = chS then some .s else none) = some p ↔
      6 ≤ bits.toNat ∧ (p, bits) ∈ [(Precedence.t, (25 : RelayChar)), (.u, 26), (.r, 23), (.s, 24)] := by
    revert bits
    cases p <;> decide
  have isT := RxChar.isTheLetter_read q mark bits (value := chT) (by decide)
  have isU := RxChar.isTheLetter_read q mark bits (value := chU) (by decide)
  have isR := RxChar.isTheLetter_read q mark bits (value := chR) (by decide)
  have isS := RxChar.isTheLetter_read q mark bits (value := chS) (by decide)
  simp only [RxChar.precedence?, isT, isU, isR, isS]
  by_cases letters : mark = true ∧ q.shift = .letters
  · obtain ⟨rfl, letters⟩ := letters
    simp only [letters, true_and]
    exact table
  · have other : ¬ (mark = true ∧ q.shift = .letters ∧ 6 ≤ bits.toNat) := fun h => letters ⟨h.1, h.2.1⟩
    simp only [← and_assoc, letters, false_and, if_false, reduceCtorEq, other]

theorem RxChar.passedOver_read : ((q.read (sampledValue mark bits) (!mark)).isShift ||
    (q.read (sampledValue mark bits) (!mark)).isCommon chCR) = true ↔ mark = true ∧ (bits = 2 ∨ bits = 4 ∨ bits = 5) := by
  rw [Bool.or_eq_true, RxChar.isShift_read, RxChar.isCommon_read, Bool.and_eq_true, decide_eq_true_eq, ← and_or_left,
    or_comm]
  rfl

end Read

/-! ### What a character of a message read in changes -/

/-- A character read: circuit c's recogniser becomes q' and record r becomes m', and the reports listed are raised. -/
def State.readsTo (s t : State) (c : Circuit) (r : RecordIdx) (q' : Recogniser) (m' : Message)
    (told : List (Place × Word × ReportKind)) : Prop :=
  s.onlyPair t c r told ∧ t.circuit c = { s.circuit c with recogniser := q' } ∧ t.message r = m'

section ReadsTo

variable {s t : State} {c : Circuit} {r : RecordIdx} {q' : Recogniser} {m' : Message}
  {told : List (Place × Word × ReportKind)}

theorem State.readsTo_refl (s : State) (c : Circuit) (r : RecordIdx) :
    s.readsTo s c r (s.recogniser c) (s.message r) [] :=
  ⟨s.onlyPair_refl c r, rfl, rfl⟩

theorem State.readsTo.updRecogniser (h : s.readsTo t c r q' m' told) (f : Recogniser → Recogniser) :
    s.readsTo (t.updRecogniser c f) c r (f q') m' told := by
  obtain ⟨pair, circuit, message⟩ := h
  refine ⟨pair.set _, ?_, message⟩
  rw [State.updRecogniser_eq, State.circuit_setCircuit_self, circuit]

theorem State.readsTo.updMessage (h : s.readsTo t c r q' m' told) (f : Message → Message)
    (state : (f m').state = m'.state) : s.readsTo (t.updMessage r f) c r q' (f m') told := by
  obtain ⟨pair, circuit, message⟩ := h
  refine ⟨pair.setRecord (by rw [message]; exact state), circuit, ?_⟩
  rw [State.updMessage_eq, State.message_setMessage_self, message]

theorem State.readsTo.updFlags (h : s.readsTo t c r q' m' told) (f : MessageFlags → MessageFlags) :
    s.readsTo (t.updFlags r f) c r q' { m' with flags := f m'.flags } told :=
  h.updMessage (fun m => { m with flags := f m.flags }) rfl

theorem State.readsTo.report (h : s.readsTo t c r q' m' told) (p : Place) (g : Word) (k : ReportKind) :
    s.readsTo (t.raise p g k) c r q' m' (told ++ [(p, g, k)]) := by
  obtain ⟨pair, circuit, message⟩ := h
  refine ⟨pair.report p g k, (t.circuit_raise c p g k).trans circuit, ?_⟩
  rw [State.message, State.raise_messages]
  exact message

end ReadsTo

/-! ### The heading line (R23 to R25) -/

/-- The recogniser after a step of the heading line. -/
def Recogniser.headed (q : Recogniser) (isLF : Bool) : HeadStep → Recogniser
  | .move pos => { q with headPos := pos }
  | .number n => { q with headPos := .afterChannel, expected := (sequenceCheck q.expected n).2 }
  | .precedence _ => { q with headPos := .afterPrecedence false }
  | .originCode a b => { q with headPos := .origin a (some b) }
  | .lineEnd => { q with state := .destLine, token := .empty, lineStart := true }
  | .deviation _ =>
    { q with state := .skipHeading, lfToCome := if isLF then 1 else 2, lineStart := q.lineStart || isLF }

/-- The record after a step of the heading line, with the number expected before it. -/
def Message.headed (m : Message) (expected : Option Nat) : HeadStep → Message
  | .number n => { m with
      channel := some n
      flags := { m.flags with
        duplicate := m.flags.duplicate || decide ((sequenceCheck expected n).1 = .duplicate) } }
  | .precedence p => { m with precedence := some p }
  | .originCode a b => { m with originCode := some ⟨a, b⟩ }
  | .deviation reason => { m with flags := { m.flags with headingError := some reason } }
  | .move _ | .lineEnd => m

/-- SEQUENCE for a gap (R25). -/
def SequenceResult.reports (result : SequenceResult) (place : Place) (tag : Word) : List (Place × Word × ReportKind) :=
  match result with
  | .gap e => [(place, tag, .sequence e)]
  | .accepted | .duplicate => []

/-- The report of a step of the heading line on a point circuit: SEQUENCE for a gap (R25). -/
def headReports (c : Circuit) (tag : Word) (expected : Option Nat) : HeadStep → List (Place × Word × ReportKind)
  | .number n => (sequenceCheck expected n).1.reports (.circuit c none) tag
  | _ => []

/-- A channel number taken on a point circuit, with its sequence check (R23, R25). -/
theorem takeNumber_spec {s : State} {c : Circuit} {r : RecordIdx} (n : Nat) (point : s.isParty c = false) :
    s.readsTo (takeNumber c r n s) c r
      { s.recogniser c with expected := (sequenceCheck (s.recogniser c).expected n).2 }
      ((s.message r).headed (s.recogniser c).expected (.number n))
      (headReports c (s.tag r) (s.recogniser c).expected (.number n)) := by
  have before : s.expectedNumber c = (s.recogniser c).expected := by
    rw [State.expectedNumber, State.inboundStation, State.partyStation_point point]
  obtain ⟨e, he⟩ : ∃ e, e = (sequenceCheck (s.recogniser c).expected n).2 := ⟨_, rfl⟩
  obtain ⟨u, hu⟩ : ∃ u, u = s.updMessage r fun m => { m with channel := some n } := ⟨_, rfl⟩
  have numbered : s.readsTo u c r (s.recogniser c) { s.message r with channel := some n } [] :=
    hu ▸ (s.readsTo_refl c r).updMessage (fun m => { m with channel := some n }) rfl
  obtain ⟨w, hw⟩ : ∃ w, w = u.updRecogniser c fun q => { q with expected := e } := ⟨_, rfl⟩
  have expects : setExpected c e u = w := by
    rw [setExpected, State.inboundStation, State.partyStation_point (by rw [hu]; exact point), hw]
  have taken : s.readsTo w c r { s.recogniser c with expected := e } { s.message r with channel := some n } [] :=
    hw ▸ numbered.updRecogniser fun q => { q with expected := e }
  have station : w.inboundStation c = none :=
    State.partyStation_point (by rw [State.isParty, taken.2.1]; exact point)
  have tag : w.tag r = s.tag r := by rw [State.tag, taken.2.2, State.tag]
  rw [takeNumber, before, ← he]
  simp only [← hu, expects, station, tag, Message.headed, headReports]
  cases (sequenceCheck (s.recogniser c).expected n).1 with
  | accepted => simpa [SequenceResult.reports] using taken
  | duplicate => simpa [SequenceResult.reports] using taken.updFlags fun f => { f with duplicate := true }
  | gap expected => simpa [SequenceResult.reports] using taken.report (.circuit c none) (s.tag r) (.sequence expected)

theorem applyHead_spec {s : State} {c : Circuit} {r : RecordIdx} (ch : RxChar) (step : HeadStep)
    (point : s.isParty c = false) :
    s.readsTo (applyHead c r ch step s) c r ((s.recogniser c).headed (ch.isCommon chLF) step)
      ((s.message r).headed (s.recogniser c).expected step) (headReports c (s.tag r) (s.recogniser c).expected step) := by
  have here := s.readsTo_refl c r
  cases step with
  | move pos => exact here.updRecogniser fun q => { q with headPos := pos }
  | number n => exact takeNumber_spec n point |>.updRecogniser fun q => { q with headPos := .afterChannel }
  | precedence p =>
    exact (here.updMessage (fun m => { m with precedence := some p }) rfl).updRecogniser fun q =>
      { q with headPos := .afterPrecedence false }
  | originCode a b =>
    exact (here.updMessage (fun m => { m with originCode := some ⟨a, b⟩ }) rfl).updRecogniser fun q =>
      { q with headPos := .origin a (some b) }
  | lineEnd =>
    exact here.updRecogniser fun q => { q with state := .destLine, token := .empty, lineStart := true }
  | deviation reason =>
    have lineStart : ((s.recogniser c).lineStart || ch.isCommon chLF) =
        if ch.isCommon chLF = true then true else (s.recogniser c).lineStart := by
      cases ch.isCommon chLF <;> simp
    rw [Recogniser.headed, lineStart]
    exact (here.updFlags fun f => { f with headingError := some reason }).updRecogniser fun q =>
      { q with
        state := .skipHeading, lfToCome := if ch.isCommon chLF then 1 else 2
        lineStart := if ch.isCommon chLF then true else q.lineStart }

/-- A character of the heading line that is not passed over (R23). -/
theorem headingChar_moves {s : State} {c : Circuit} {r : RecordIdx} {ch : RxChar}
    (moves : ¬ (ch.isShift || ch.isCommon chCR) = true) (filling : (s.recogniser c).filling = some r) :
    headingChar c ch s = applyHead c r ch (headStep (s.recogniser c).headPos ch) s := by
  simp only [headingChar, if_neg moves, filling]

theorem headingChar_passedOver {s : State} {c : Circuit} {ch : RxChar}
    (passed : (ch.isShift || ch.isCommon chCR) = true) : headingChar c ch s = s := by
  simp only [headingChar, if_pos passed]

/-! ### The destination line (R26) -/

theorem ordinaryChar_destLine {s : State} {c : Circuit} (counted : Bool) (ch : RxChar)
    (destination : (s.recogniser c).state = .destLine) : ordinaryChar c counted ch s = destChar c ch s := by
  simp only [ordinaryChar, destination]

/-- A skipped heading counts its LFs (R24). -/
theorem ordinaryChar_skipHeading {s : State} {c : Circuit} (counted : Bool) {ch : RxChar}
    (skipping : (s.recogniser c).state = .skipHeading) : ordinaryChar c counted ch s =
      if ch.isCommon chLF then s.updRecogniser c fun q =>
        { q with
          lineStart := true, lfToCome := q.lfToCome - 1
          state := if q.lfToCome ≤ 1 then .text else .skipHeading }
      else s := by
  simp only [ordinaryChar, skipping]

/-- The end of a token changes destinations and flags only (R26). -/
theorem Message.endToken_state (m : Message) (t : Token) : (m.endToken t).state = m.state := by
  have added (d : Dest) : (m.addDest d).state = m.state := by
    unfold Message.addDest
    split <;> rfl
  cases t with
  | empty => rfl
  | one a => exact added _
  | two a b =>
    simp only [Message.endToken]
    split
    · rfl
    · exact added _
  | bad => exact added _

theorem destChar_passedOver {s : State} {c : Circuit} {ch : RxChar}
    (passed : (ch.isShift || ch.isCommon chCR) = true) : destChar c ch s = s := by
  simp only [destChar, if_pos passed]

section Destination

variable {s : State} {c : Circuit} {r : RecordIdx} {ch : RxChar} (moves : ¬ (ch.isShift || ch.isCommon chCR) = true)
  (filling : (s.recogniser c).filling = some r)
include moves filling

theorem destChar_space (space : ch.isCommon chSpace = true) :
    s.readsTo (destChar c ch s) c r { s.recogniser c with token := .empty }
      ((s.message r).endToken (s.recogniser c).token) [] := by
  have form : destChar c ch s = (s.updMessage r fun m => m.endToken (s.recogniser c).token).updRecogniser c fun q =>
      { q with token := .empty } := by
    simp only [destChar, if_neg moves, filling, if_pos space]
  rw [form]
  exact ((s.readsTo_refl c r).updMessage (fun m => m.endToken (s.recogniser c).token)
    (Message.endToken_state _ _)).updRecogniser fun q => { q with token := .empty }

theorem destChar_lineFeed (space : ¬ ch.isCommon chSpace = true) (lineFeed : ch.isCommon chLF = true) :
    s.readsTo (destChar c ch s) c r { s.recogniser c with token := .empty, state := .text, lineStart := true }
      (if ((s.message r).endToken (s.recogniser c).token).destinations = [] then
        { (s.message r).endToken (s.recogniser c).token with
          flags := { ((s.message r).endToken (s.recogniser c).token).flags with headingError := some .noDestination } }
      else (s.message r).endToken (s.recogniser c).token) [] := by
  obtain ⟨u, hu⟩ : ∃ u, u = s.updMessage r fun m => m.endToken (s.recogniser c).token := ⟨_, rfl⟩
  have ended : s.readsTo u c r (s.recogniser c) ((s.message r).endToken (s.recogniser c).token) [] :=
    hu ▸ (s.readsTo_refl c r).updMessage (fun m => m.endToken (s.recogniser c).token) (Message.endToken_state _ _)
  have form : destChar c ch s = (if ((s.message r).endToken (s.recogniser c).token).destinations = [] then
      u.updFlags r fun f => { f with headingError := some .noDestination } else u).updRecogniser c fun q =>
        { q with token := .empty, state := .text, lineStart := true } := by
    simp only [destChar, if_neg moves, filling, if_neg space, if_pos lineFeed, ← hu, ended.2.2, List.isEmpty_iff]
  rw [form]
  split
  · exact (ended.updFlags fun f => { f with headingError := some .noDestination }).updRecogniser fun q =>
      { q with token := .empty, state := .text, lineStart := true }
  · exact ended.updRecogniser fun q => { q with token := .empty, state := .text, lineStart := true }

theorem destChar_other (space : ¬ ch.isCommon chSpace = true) (lineFeed : ¬ ch.isCommon chLF = true) :
    s.readsTo (destChar c ch s) c r { s.recogniser c with token := (s.recogniser c).token.add ch } (s.message r) [] := by
  have form : destChar c ch s = s.updRecogniser c fun q => { q with token := q.token.add ch } := by
    simp only [destChar, if_neg moves, filling, if_neg space, if_neg lineFeed]
  rw [form]
  exact (s.readsTo_refl c r).updRecogniser fun q => { q with token := q.token.add ch }

end Destination

end Sys2Proof.Machine

open Sys2Proof Sys2Proof.Machine

/-- Settles O60: the table of the heading line, the skipped heading and the destination line. -/
theorem headingAndDestinationLinesAreRead : Obligations.HeadingAndDestinationLinesAreRead := by
  unfold Obligations.HeadingAndDestinationLinesAreRead
  intro c mark s k bits r receiver due service point filling quiet x q arrival counted read passedOver space lineFeed
    letter digit deviates at' destLine
  obtain ⟨pair, circuit, message⟩ := s.arrived_sampled mark quiet (sampledValue mark bits) filling
  obtain ⟨w, hw⟩ : ∃ w, w = (s.sampled c mark).arrived c (sampledValue mark bits) (!mark) := ⟨_, rfl⟩
  obtain ⟨ch, hch⟩ : ∃ ch, ch = q.read (sampledValue mark bits) (!mark) := ⟨_, rfl⟩
  rw [← hw] at pair circuit message
  have recogniser : w.recogniser c = arrival := by rw [State.recogniser, circuit]; rfl
  have record : w.message r = counted := by
    rw [message]
    cases mark <;> rfl
  have reads {t : State} {q' : Recogniser} {m' : Message} {told : List (Place × Word × ReportKind)}
      (runs : exec (.characterReceived c mark) s = .next t) (h : w.readsTo t c r q' m' told) : read q' m' told := by
    obtain ⟨change, at'', record'⟩ := h
    obtain ⟨form, others, records⟩ := State.onlyPair_trans (l := []) pair change
    refine ⟨t, runs, form, others, ?_, records, record'⟩
    rw [at'', circuit]
  have atSpace : ch.isCommon chSpace = true ↔ space := by
    rw [hch, RxChar.isCommon_read, Bool.and_eq_true, decide_eq_true_eq]
    rfl
  have isLF : ch.isCommon chLF = (mark && decide (bits = 1)) := hch ▸ RxChar.isCommon_read _ mark bits chLF
  have atLF : ch.isCommon chLF = true ↔ lineFeed := by rw [isLF, Bool.and_eq_true, decide_eq_true_eq]
  have passes : (ch.isShift || ch.isCommon chCR) = true ↔ passedOver := hch ▸ RxChar.passedOver_read q mark bits
  have isLetter : ch.isLetter = true ↔ letter := hch ▸ RxChar.isLetter_read q mark bits
  have isDigit (d : Nat) : ch.digit? = some d ↔ digit d := hch ▸ RxChar.digit?_read q mark bits d
  have noDigit (h : ∀ d, ¬ digit d) : ch.digit? = none := Option.eq_none_iff_forall_ne_some.mpr fun d =>
    mt (isDigit d).mp (h d)
  have digitApart {d : Nat} (h : digit d) : ¬ ch.isCommon chSpace = true := fun atSpace' => by
    obtain ⟨-, -, -, high⟩ := h
    rw [(atSpace.mp atSpace').2] at high
    split at high <;> simp at high
  have letterApart (h : letter) : ¬ ch.isCommon chSpace = true := fun atSpace' => by
    have high := h.2.2
    rw [(atSpace.mp atSpace').2] at high
    exact absurd high (by decide)
  have lineFeedApart (h : lineFeed) : ¬ ch.isCommon chSpace = true := fun atSpace' =>
    absurd (h.2.symm.trans (atSpace.mp atSpace').2) (by decide)
  have spaceMoves (h : space) : ¬ passedOver := by
    rintro ⟨-, other⟩
    rw [h.2] at other
    exact absurd other (by decide)
  have lineFeedMoves (h : lineFeed) : ¬ passedOver := by
    rintro ⟨-, other⟩
    rw [h.2] at other
    exact absurd other (by decide)
  have value (h : letter) : ch.value = bits := by rw [hch, Recogniser.read, h.1]; rfl
  have point' : w.isParty c = false := by rw [State.isParty, circuit]; exact point
  have tag : w.tag r = s.tag r := by rw [State.tag, record, State.tag]
  have filling' : (w.recogniser c).filling = some r := by rw [recogniser]; exact filling
  have sampled := s.recogniser_sampled mark quiet
  refine ⟨fun heading => ?_, fun skipping away => ?_, fun destination away => ?_⟩
  · have runs : exec (.characterReceived c mark) s = .next (headingChar c ch w) := by
      rw [exec_characterReceived_point receiver due service point, recogniserChar_headingLine _ _ (by rw [sampled, heading]),
        sampled, ← hw, ← hch]
    refine ⟨fun passed => reads (by rw [runs, headingChar_passedOver (passes.mpr passed)]) ?_, fun moves => ?_⟩
    · have here := w.readsTo_refl c r
      rwa [recogniser, record] at here
    have steps {pos : HeadPos} {step : HeadStep} (at' : q.headPos = pos) (takes : headStep pos ch = step) :
        read (arrival.headed (mark && decide (bits = 1)) step) (counted.headed q.expected step)
          (headReports c (s.tag r) q.expected step) := by
      refine reads runs ?_
      have pos' : (w.recogniser c).headPos = pos := by rw [recogniser]; exact at'
      rw [headingChar_moves (mt passes.mp moves) filling', pos', takes]
      have spec := applyHead_spec (r := r) ch step point'
      rw [recogniser, record, isLF, tag] at spec
      exact spec
    have final (pos : (∃ a b, q.headPos = .origin a (some b)) ∨ q.headPos = .afterOrigin) {step : HeadStep}
        (takes : headStep .afterOrigin ch = step) : read (arrival.headed (mark && decide (bits = 1)) step)
          (counted.headed q.expected step) (headReports c (s.tag r) q.expected step) := by
      rcases pos with ⟨a, b, pos⟩ | pos
      · exact steps pos takes
      · exact steps pos takes
    refine ⟨fun spaced pos => ⟨fun h => ?_, fun d h yes => ?_, fun h none => ?_⟩, fun a pos => ⟨fun d h => ?_, fun none => ?_⟩,
      fun a b pos => ⟨fun d h => ?_, fun none => ?_⟩, fun a b e pos => ?_,
      fun pos => ⟨fun h => ?_, fun p h which => ?_, fun h other => ?_⟩,
      fun spaced pos => ⟨fun h => ?_, fun h no => ?_, fun yes h => ?_, fun h yes other => ?_⟩,
      fun a pos => ⟨fun h => ?_, fun h => ?_⟩, fun pos => ⟨fun h => ?_, fun h => ?_, fun h h' => ?_⟩⟩
    · exact steps pos (step := .move (.afterSom true)) (by simp [headStep, atSpace.mpr h])
    · subst yes
      exact steps pos (step := .move (.channel [d])) (by simp [headStep, digitApart h, (isDigit d).mpr h])
    · refine steps pos (step := .deviation .badChannel) ?_
      cases spaced with
      | false => cases ch.digit? <;> simp [headStep, mt atSpace.mp h]
      | true => simp [headStep, mt atSpace.mp h, noDigit (none rfl)]
    · exact steps pos (step := .move (.channel [a, d])) (by simp [headStep, (isDigit d).mpr h])
    · exact steps pos (step := .deviation .badChannel) (by simp [headStep, noDigit none])
    · exact steps pos (step := .move (.channel [a, b, d])) (by simp [headStep, (isDigit d).mpr h])
    · exact steps pos (step := .deviation .badChannel) (by simp [headStep, noDigit none])
    · intro n next previous numbered
      have taken {result : SequenceResult} {expected : Option Nat} (h : space) (positive : 0 < n)
          (check : sequenceCheck q.expected n = (result, expected)) :
          numbered expected (decide (result = .duplicate)) (result.reports (.circuit c none) (s.tag r)) := by
        have digitless : ch.digit? = none := noDigit fun d digits => digitApart digits (atSpace.mpr h)
        have moved := steps pos (step := .number n) (by simp [headStep, digitless, atSpace.mpr h, positive, n])
        rw [Recogniser.headed, Message.headed, headReports, show arrival.expected = q.expected from rfl, check] at moved
        exact moved
      refine ⟨fun h positive => ⟨fun none => ?_, fun expected known => ⟨fun same => ?_, fun other before => ?_,
        fun other after => ?_⟩⟩, fun h => ?_⟩
      · exact taken h positive (result := .accepted) (by rw [none]; rfl)
      · exact taken h positive (result := .accepted) (by rw [known, same]; simp [sequenceCheck, nextChannel, next])
      · exact taken h positive (result := .duplicate) (by
          rw [known]
          exact (if_neg other).trans (if_pos before))
      · exact taken h positive (result := .gap expected) (by
          rw [known]
          exact (if_neg other).trans (if_neg after))
      · refine steps pos (step := .deviation .badChannel) ?_
        have notNumber : ¬ (ch.isCommon chSpace && decide (0 < 100 * a + 10 * b + e)) = true := by
          rw [Bool.and_eq_true, decide_eq_true_eq, atSpace]
          exact h
        cases digits : ch.digit? <;> simp only [headStep, digits, if_neg notNumber]
    · exact steps pos (step := .move .afterChannel) (by simp [headStep, atSpace.mpr h])
    · have isPrecedence : ch.precedence? = some p := hch ▸ (RxChar.precedence?_read q mark bits p).mpr ⟨h, which⟩
      exact steps pos (step := .precedence p) (by simp [headStep, letterApart h, isPrecedence])
    · have notPrecedence : ch.precedence? = none := by
        refine Option.eq_none_iff_forall_ne_some.mpr fun p found => other ?_
        obtain ⟨isLetter', which⟩ := (RxChar.precedence?_read q mark bits p).mp (hch ▸ found)
        exact ⟨isLetter', List.mem_map_of_mem (f := Prod.snd) which⟩
      exact steps pos (step := .deviation .badPrecedence) (by simp [headStep, mt atSpace.mp h, notPrecedence])
    · exact steps pos (step := .move (.afterPrecedence true)) (by simp [headStep, atSpace.mpr h])
    · subst no
      exact steps pos (step := .deviation .badPrecedence) (by simp [headStep, mt atSpace.mp h])
    · subst yes
      exact steps pos (step := .move (.origin bits none))
        (by simp [headStep, letterApart h, isLetter.mpr h, value h])
    · subst yes
      exact steps pos (step := .deviation .badOrigin) (by simp [headStep, mt atSpace.mp h, mt isLetter.mp other])
    · exact steps pos (step := .originCode a bits) (by simp [headStep, isLetter.mpr h, value h])
    · exact steps pos (step := .deviation .badOrigin) (by simp [headStep, mt isLetter.mp h])
    · exact final pos (step := .move .afterOrigin) (by simp [headStep, atSpace.mpr h])
    · exact final pos (step := .lineEnd) (by simp [headStep, lineFeedApart h, atLF.mpr h])
    · exact final pos (step := .deviation .badOrigin) (by simp [headStep, mt atSpace.mp h, mt atLF.mp h'])
  · have runs : exec (.characterReceived c mark) s = .next (ordinaryChar c false ch w) := by
      rw [exec_characterReceived_point receiver due service point, recogniserChar_watched _ _
        (by rw [sampled, skipping]; decide), sampled, ← hw, ← hch, watchChar_away]
      rw [recogniser]
      exact away
    have here := w.readsTo_refl c r
    rw [recogniser, record] at here
    have skipping' : (w.recogniser c).state = .skipHeading := by rw [recogniser]; exact skipping
    refine ⟨fun h => ?_, fun h => ?_⟩
    · rw [ordinaryChar_skipHeading false skipping', if_pos (atLF.mpr h)] at runs
      exact reads runs (here.updRecogniser _)
    · rw [ordinaryChar_skipHeading false skipping', if_neg (mt atLF.mp h)] at runs
      exact reads runs here
  · intro placed ended
    have runs : exec (.characterReceived c mark) s = .next (destChar c ch w) := by
      rw [exec_characterReceived_point receiver due service point, recogniserChar_watched _ _
        (by rw [sampled, destination]; decide), sampled, ← hw, ← hch, watchChar_away, ordinaryChar_destLine]
      · rw [recogniser]
        exact destination
      · rw [recogniser]
        exact away
    have token : ended = counted.endToken arrival.token := by
      change ended = counted.endToken q.token
      simp only [ended]
      cases q.token <;> rfl
    refine ⟨fun h => ?_, fun h => ?_, fun h => ?_, fun h h' h'' => ?_⟩
    · have here := w.readsTo_refl c r
      rw [recogniser, record] at here
      rw [destChar_passedOver (passes.mpr h)] at runs
      exact reads runs here
    · have spec := destChar_space (s := w) (mt passes.mp (spaceMoves h)) filling' (atSpace.mpr h)
      rw [recogniser, record, ← token] at spec
      exact reads runs spec
    · have notSpace : ¬ ch.isCommon chSpace = true := lineFeedApart h
      have spec := destChar_lineFeed (s := w) (mt passes.mp (lineFeedMoves h)) filling' notSpace (atLF.mpr h)
      rw [recogniser, record, ← token] at spec
      exact reads runs spec
    · have spec := destChar_other (s := w) (mt passes.mp h) filling' (mt atSpace.mp h') (mt atLF.mp h'')
      rw [recogniser, record, show arrival.token = q.token from rfl] at spec
      have added : q.token.add ch = match q.token with
          | .empty => if mark && decide (q.shift = .letters) && decide (6 ≤ bits.toNat) then .one bits else .bad
          | .one a => if mark && decide (q.shift = .letters) && decide (6 ≤ bits.toNat) then .two a bits else .bad
          | .two _ _ | .bad => .bad := hch ▸ Token.add_read q mark bits q.token
      rw [added] at spec
      exact reads runs spec

end

section
/-! PROOF. The party dialogue's timers, failed attempts and replies (R119 to R121, R128 to R133). -/

namespace Sys2Proof.Machine

/-! ### The dialogue and its stations (R120, R128, R129) -/

/-- The dialogue in QUIET (R120, R128). -/
def Dialogue.quieted (d : Dialogue) : Dialogue :=
  { d with state := .quiet, answerTimer := none, lineEndWait := false, pollReply := none }

theorem enterQuiet_spec (c : Circuit) (s : State) : s.onlyCircuit (enterQuiet c s) c [] ∧
    (enterQuiet c s).circuit c = { s.circuit c with dialogue := (s.circuit c).dialogue.quieted } :=
  ⟨s.onlyCircuit_setCircuit c _, s.circuit_setCircuit_self c _⟩

/-- The dialogue in REPLYING (R132, R133). -/
theorem enterReplying_spec (c : Circuit) (s : State) : s.onlyCircuit (enterReplying c s) c [] ∧
    (enterReplying c s).circuit c = { s.circuit c with dialogue := { (s.circuit c).dialogue with
      state := .replying, sequencePos := 0, answerTimer := none, lineEndWait := false } } :=
  ⟨s.onlyCircuit_setCircuit c _, s.circuit_setCircuit_self c _⟩

/-- The failure count a failed attempt leaves (R128). -/
def Station.failuresAfter (x : Station) : Nat := min (x.failures + 1) 7

/-- A failed attempt at the retry limit of a station that was ANSWERING (R129). -/
abbrev CircuitState.stationFails (x : CircuitState) (n : StationIdx) : Prop :=
  x.control.effective.retryLimit ≤ x.stations[n].failuresAfter ∧ x.stations[n].answering = true

/-- STATION for a station that no longer answers (R129). -/
def CircuitState.failureReports (x : CircuitState) (c : Circuit) (n : StationIdx) : List (Place × Word × ReportKind) :=
  if x.stationFails n then [(.circuit c (some n), 0, .station false)] else []

/-- The circuit with a failed attempt of station n counted (R128, R129). -/
def CircuitState.attemptFailed (x : CircuitState) (n : StationIdx) : CircuitState :=
  { x with stations := x.stations.set n { x.stations[n] with
      failures := x.stations[n].failuresAfter
      answering := x.stations[n].answering && !decide (x.stationFails n) } }

theorem stationFailed_spec (c : Circuit) (n : StationIdx) (s : State) :
    s.onlyCircuit (stationFailed c n s) c ((s.circuit c).failureReports c n) ∧
    (stationFailed c n s).circuit c = (s.circuit c).attemptFailed n := by
  obtain ⟨u, hu⟩ : ∃ u, u = s.setCircuit c ((s.circuit c).attemptFailed n) := ⟨_, rfl⟩
  have form : stationFailed c n s =
      if (s.circuit c).stationFails n then u.raise (.circuit c (some n)) 0 (.station false) else u := by
    rw [hu]
    unfold stationFailed
    simp [CircuitState.stationFails, Station.failuresAfter, CircuitState.attemptFailed, State.station]
  have change : s.onlyCircuit u c [] := hu ▸ s.onlyCircuit_setCircuit c _
  have at' : u.circuit c = (s.circuit c).attemptFailed n := by rw [hu, s.circuit_setCircuit_self]
  rw [form, CircuitState.failureReports]
  split
  · exact ⟨State.onlyCircuit_trans (l := []) change (u.onlyCircuit_raise c _ _ _), (u.circuit_raise c _ _ _).trans at'⟩
  · exact ⟨change, at'⟩

/-- Outside the wait for a receipt a failed attempt counts against the selected station (R128). -/
theorem failedAttempt_waiting {s : State} {c : Circuit} {n : StationIdx}
    (away : (s.circuit c).dialogue.state ≠ .receiptWait) (selected : (s.circuit c).dialogue.selected = some n) :
    ∃ u, failedAttempt c s = judge c u ∧ s.onlyCircuit u c ((s.circuit c).failureReports c n) ∧
    u.circuit c = { (s.circuit c).attemptFailed n with dialogue := (s.circuit c).dialogue.quieted } := by
  obtain ⟨w, hw⟩ : ∃ w, w = s.updDialogue c fun d => { d with answerTimer := none } := ⟨_, rfl⟩
  have stops : s.onlyCircuit w c [] := hw ▸ s.onlyCircuit_setCircuit c _
  have at' : w.circuit c = { s.circuit c with
      dialogue := { (s.circuit c).dialogue with answerTimer := none } } := by
    rw [hw, State.updDialogue_eq, State.circuit_setCircuit_self]
  obtain ⟨fails, at''⟩ := stationFailed_spec c n w
  have reports : (w.circuit c).failureReports c n = (s.circuit c).failureReports c n := by
    rw [at']
    rfl
  rw [reports] at fails
  obtain ⟨quiets, at3⟩ := enterQuiet_spec c (stationFailed c n w)
  refine ⟨enterQuiet c (stationFailed c n w), ?_, ?_, ?_⟩
  · simp only [failedAttempt, ← hw, if_neg away, selected, quietAndJudge]
  · simpa using State.onlyCircuit_trans (l := []) stops (State.onlyCircuit_trans fails quiets)
  · rw [at3, at'', at']
    rfl

/-! ### A character of an inbound message (R131, R132) -/

theorem exec_characterReceived_inbound {s : State} {c : Circuit} {mark : Bool} {k : Nat} {bits : RelayChar}
    (receiver : (s.circuit c).line.receiver = .assembling k bits) (due : 95 ≤ k) (service : s.inService c = true)
    (party : s.isParty c = true) (quiet : s.quietWord c) (inbound : (s.circuit c).dialogue.state = .inbound) :
    exec (.characterReceived c mark) s = .next (inboundChar c (sampledValue mark bits) (!mark) (s.sampled c mark)) := by
  have inbound' : ((s.sampled c mark).circuit c).dialogue.state = .inbound := by
    rw [(s.sampled_quiet mark quiet).2.1]
    exact inbound
  rw [exec_characterReceived receiver due, handOn_party _ _ ((s.inService_sampled c mark).trans service)
    ((s.isParty_sampled c mark).trans party), dialogueChar]
  simp only [inbound']

/-- Only an LF can end the line-end wait (R132). -/
theorem inboundChar_other {s : State} {c : Circuit} {value : RelayChar} (mutilated : Bool) (other : value ≠ chLF) :
    inboundChar c value mutilated s = recogniserChar c value mutilated s := by
  simp [inboundChar, other]

theorem inboundChar_lineFeed {s : State} {c : Circuit} (waiting : (s.circuit c).dialogue.lineEndWait = true) :
    inboundChar c chLF false s = enterReplying c (recogniserChar c chLF false s) := by
  simp [inboundChar, waiting]

/-- An LF in HUNT (R20, R21). -/
theorem huntChar_lineFeed {s : State} {c : Circuit} {ch : RxChar} (lineFeed : ch.isCommon chLF = true) :
    huntChar c ch s = s.updRecogniser c fun q => { q with lineStart := true, somCount := 0 } := by
  simp only [huntChar, lineFeed, if_true]

/-- The dialogue that owes its station a reply (R132). -/
def Dialogue.owing (d : Dialogue) (reply : Reply) (timeout : Nat) : Dialogue :=
  { d with replyOwed := some reply, lineEndWait := true, answerTimer := some timeout }

/-- EEEE in the text of an inbound message (R132). -/
theorem patternDone_eom_inbound {s : State} {c : Circuit} {r : RecordIdx} (party : s.isParty c = true)
    (inbound : (s.circuit c).dialogue.state = .inbound) (text : (s.recogniser c).state = .text)
    (filling : (s.recogniser c).filling = some r) (running : (s.recogniser c).discardCause = none) :
    s.onlyCircuit (patternDone c chE s) c [] ∧
    (patternDone c chE s).circuit c = { (s.circuit c).ended .eom false with
      dialogue := (s.circuit c).dialogue.owing (if (s.message r).flags.clean then .accepted else .refused)
        (s.circuit c).control.effective.answerTimeout } := by
  obtain ⟨change, at'⟩ := s.consumed_spec c
  obtain ⟨u, hu⟩ : ∃ u, u = s.updRecogniser c fun q => { q with held := [] } := ⟨_, rfl⟩
  rw [← hu] at change at'
  have recogniser : u.recogniser c = { s.recogniser c with held := [] } := by rw [State.recogniser, at']
  obtain ⟨v, form, ends, at''⟩ := endMessage_spec c .eom false u
  have clean : u.endsClean c .eom = (s.message r).flags.clean := by
    simp [State.endsClean, recogniser, filling, State.message_of_onlyCircuit change]
  rw [State.lossReports_of_length (.inl (by rw [recogniser]; exact running))] at ends
  have form' : patternDone c chE s = dialogueEnding c .eom (s.message r).flags.clean v := by
    rw [patternDone_chE, ← hu, patternEom_filling (r := r) (by rw [recogniser]; exact filling), recogniser,
      if_neg (by rw [text]; decide), form, clean]
  have circuit : v.circuit c = (s.circuit c).ended .eom false := by rw [at'', at']; rfl
  have atDialogue : (v.isParty c && decide ((v.circuit c).dialogue.state = .inbound)) = true := by
    have party' : v.isParty c = true := by rw [State.isParty, circuit]; exact party
    have inbound' : (v.circuit c).dialogue.state = .inbound := by rw [circuit]; exact inbound
    simp [party', inbound']
  rw [form', dialogueEnding, if_pos atDialogue]
  refine ⟨(State.onlyCircuit_trans (l := []) change ends).set _, ?_⟩
  rw [State.updDialogue_eq, State.circuit_setCircuit_self, circuit]
  rfl

/-- A silence in an inbound message is a failed attempt (R36, R132). -/
theorem endMessage_silence_inbound {s : State} {c : Circuit} {n : StationIdx} (party : s.isParty c = true)
    (inbound : (s.circuit c).dialogue.state = .inbound) (selected : (s.circuit c).dialogue.selected = some n)
    (running : (s.recogniser c).discardCause = none) :
    ∃ u, endMessage c .silence true s = judge c u ∧ s.onlyCircuit u c ((s.circuit c).failureReports c n) ∧
    u.circuit c = { ((s.circuit c).ended .silence true).attemptFailed n with
      dialogue := (s.circuit c).dialogue.quieted } := by
  obtain ⟨v, form, ends, circuit⟩ := endMessage_spec c .silence true s
  rw [State.lossReports_of_length (.inl running)] at ends
  have inbound' : (v.circuit c).dialogue.state = .inbound := by rw [circuit]; exact inbound
  have atDialogue : (v.isParty c && decide ((v.circuit c).dialogue.state = .inbound)) = true := by
    have party' : v.isParty c = true := by rw [State.isParty, circuit]; exact party
    simp [party', inbound']
  obtain ⟨u, fails, only, at'⟩ := failedAttempt_waiting (s := v) (c := c) (n := n) (by rw [inbound']; decide)
    (by rw [circuit]; exact selected)
  refine ⟨u, ?_, ?_, ?_⟩
  · rw [form, dialogueEnding, if_pos atDialogue]
    exact fails
  · have reports : (v.circuit c).failureReports c n = (s.circuit c).failureReports c n := by rw [circuit]; rfl
    rw [reports] at only
    exact State.onlyCircuit_trans (l := []) ends only
  · rw [at', circuit]
    rfl

/-! ### The reply (R133) -/

/-- The letter of a reply, sent twice (R133). -/
def Reply.letter : Reply → RelayChar
  | .accepted => 23
  | .refused => 22

theorem replySequence_eq (reply : Reply) : replySequence reply = [reply.letter, reply.letter] := by
  cases reply <;> rfl

section Replying

variable {s : State} {c : Circuit} {reply : Reply} (replying : (s.circuit c).dialogue.state = .replying)
  (owed : (s.circuit c).dialogue.replyOwed = some reply)
include replying owed

theorem State.dialogueSequence_reply : s.dialogueSequence c = [reply.letter, reply.letter] := by
  simp [State.dialogueSequence, replying, owed, replySequence_eq]

theorem dialogueCharLeft_firstReply (first : (s.circuit c).dialogue.sequencePos = 0) :
    dialogueCharLeft c s = s.setCircuit c { s.circuit c with
      dialogue := { (s.circuit c).dialogue with sequencePos := 1 } } := by
  unfold dialogueCharLeft
  rw [State.dialogueSequence_reply replying owed]
  simp [replying, first]

theorem dialogueCharLeft_lastReply (last : (s.circuit c).dialogue.sequencePos = 1) :
    ∃ u, dialogueCharLeft c s = judge c u ∧ s.onlyCircuit u c [] ∧
    u.circuit c = { s.circuit c with
      dialogue := { (s.circuit c).dialogue.quieted with sequencePos := 2, replyOwed := none } } := by
  obtain ⟨w, hw⟩ : ∃ w, w = (s.updDialogue c fun d => { d with sequencePos := d.sequencePos + 1 }).updDialogue c
    fun d => { d with replyOwed := none } := ⟨_, rfl⟩
  have form : dialogueCharLeft c s = quietAndJudge c w := by
    unfold dialogueCharLeft
    rw [State.dialogueSequence_reply replying owed]
    simp [replying, last, hw]
  obtain ⟨quiets, at'⟩ := enterQuiet_spec c w
  have change : s.onlyCircuit w c [] := hw ▸ (s.onlyCircuit_setCircuit c _).set _
  refine ⟨enterQuiet c w, form, State.onlyCircuit_trans (l := []) change quiets, ?_⟩
  rw [at', hw]
  simp [Dialogue.quieted, last]

end Replying

end Sys2Proof.Machine

open Sys2Proof Sys2Proof.Machine

/-- Settles O58: the two timers, the end and the reply of an inbound message, and its silence. -/
theorem partyTimersExpire : Obligations.PartyTimersExpire := by
  unfold Obligations.PartyTimersExpire
  refine ⟨fun c s due => ⟨fun n waits selected => ?_, fun inbound waiting => ?_⟩, fun c s due => ?_,
    fun c s k bits receiver due service party quiet inbound => ⟨fun r isE text filling running letters lineStart short
      three first => ?_, fun isLF hunt waiting => ?_⟩,
    fun c s char tick total reply sending due party service valid none replying owed => ⟨fun first => ?_, fun last => ?_⟩,
    fun c s r n silence party inbound selected text filling held running => ?_⟩
  · obtain ⟨w, hw⟩ : ∃ w, w = s.updDialogue c fun d => { d with answerTimer := none } := ⟨_, rfl⟩
    have stops : s.onlyCircuit w c [] := hw ▸ s.onlyCircuit_setCircuit c _
    have at' : w.circuit c = { s.circuit c with
        dialogue := { (s.circuit c).dialogue with answerTimer := none } } := by
      rw [hw, State.updDialogue_eq, State.circuit_setCircuit_self]
    have away : (s.circuit c).dialogue.state ≠ .receiptWait := by rcases waits with h | h <;> rw [h] <;> decide
    obtain ⟨u, fails, only, at''⟩ := failedAttempt_waiting (s := w) (c := c) (n := n) (by rw [at']; exact away)
      (by rw [at']; exact selected)
    refine ⟨u, ?_, ?_, ?_⟩
    · refine congrArg Host.Outcome.next ?_
      rw [← fails, answerTimerExpiry, if_pos due, ← hw]
      rcases waits with h | h <;> simp only [h]
    · have reports : (w.circuit c).failureReports c n = (s.circuit c).failureReports c n := by rw [at']; rfl
      rw [reports] at only
      exact State.onlyCircuit_trans (l := []) stops only
    · rw [at'', at']
      rfl
  · obtain ⟨w, hw⟩ : ∃ w, w = s.updDialogue c fun d => { d with answerTimer := none } := ⟨_, rfl⟩
    obtain ⟨replies, at'⟩ := enterReplying_spec c w
    refine ⟨enterReplying c w, ?_, State.onlyCircuit_trans (l := []) (hw ▸ s.onlyCircuit_setCircuit c _) replies, ?_⟩
    · refine congrArg Host.Outcome.next ?_
      rw [answerTimerExpiry, if_pos due, ← hw]
      simp only [inbound, waiting, if_true]
    · rw [at', hw, State.updDialogue_eq, State.circuit_setCircuit_self]
  · exact ⟨_, congrArg Host.Outcome.next (if_pos due), s.onlyCircuit_setCircuit c _, s.circuit_setCircuit_self c _⟩
  · subst isE
    obtain ⟨w, runs, only, at', recogniser⟩ := recogniserChar_pattern (letter := 10) quiet lineStart
      (.inl (.inr (.inl text))) short letters (.inl rfl) first (congrArg Nat.succ three)
    obtain ⟨ends, at''⟩ := patternDone_eom_inbound (s := w) (c := c) (r := r) (by rw [State.isParty, at']; exact party)
      (by rw [at']; exact inbound) (by rw [recogniser]; exact text) (by rw [recogniser]; exact filling)
      (by rw [recogniser]; exact running)
    refine ⟨patternDone c chE w, ?_, State.onlyCircuit_trans (l := []) only ends, ?_⟩
    · rw [exec_characterReceived_inbound receiver due service party quiet inbound,
        inboundChar_other _ (by decide)]
      exact congrArg Host.Outcome.next runs
    · have clean : ((s.message r).flags.clean = true) = ((s.message r).flags.truncated = false ∧
          (s.message r).flags.lengthLimit = false) := by simp [MessageFlags.clean]
      rw [at'', at', CircuitState.ended_filling _ _ (by exact filling) (by exact running),
        State.message_of_onlyCircuit only, ite_congr clean (fun _ => rfl) fun _ => rfl]
      rfl
  · subst isLF
    obtain ⟨only, at'⟩ := s.arrived_sampled_plain true quiet 1 (.inl rfl)
    have handled : recogniserChar c 1 false (s.sampled c true) = ((s.sampled c true).arrived c 1 false).updRecogniser c
        fun q => { q with lineStart := true, somCount := 0 } := by
      rw [recogniserChar_hunt _ _ (by rw [s.recogniser_sampled true quiet, hunt]), huntChar_lineFeed rfl]
    obtain ⟨w, hw⟩ : ∃ w, w = (s.sampled c true).arrived c 1 false := ⟨_, rfl⟩
    rw [Bool.not_true, ← hw] at only at'
    rw [← hw] at handled
    obtain ⟨replies, at''⟩ := enterReplying_spec c (w.updRecogniser c fun q => { q with lineStart := true, somCount := 0 })
    refine ⟨_, ?_, State.onlyCircuit_trans (l := []) (only.set _) replies, ?_⟩
    · have waiting' : ((s.sampled c true).circuit c).dialogue.lineEndWait = true := by
        rw [(s.sampled_quiet true quiet).2.1]
        exact waiting
      rw [exec_characterReceived_inbound receiver due service party quiet inbound, ← handled]
      exact congrArg Host.Outcome.next (inboundChar_lineFeed waiting')
    · rw [at'', State.updRecogniser_eq, State.circuit_setCircuit_self, at']
      rfl
  · obtain ⟨u, hu⟩ : ∃ u, u = dialogueCharLeft c (s.atBoundary c) := ⟨_, rfl⟩
    have boundary := s.circuit_atBoundary c
    have form := dialogueCharLeft_firstReply (s := s.atBoundary c) (c := c) (reply := reply)
      (by rw [boundary]; exact replying) (by rw [boundary]; exact owed) (by rw [boundary]; exact first)
    rw [← hu] at form
    have at' : u.circuit c = { s.circuit c with
        dialogue := { (s.circuit c).dialogue with sequencePos := 1 }
        line := { (s.circuit c).line with transmitter := .idle, txTicksDue := (s.circuit c).line.txTicksDue - 1 } } := by
      rw [form, State.circuit_setCircuit_self, boundary]
    have change : s.onlyCircuit u c [] := form ▸ State.onlyCircuit.set (s.onlyCircuit_setCircuit c _) _
    have word : u.setting c 1 = s.setting c 1 := State.setting_of_onlyCircuit change c 1
    have compared := u.circuit_sendCompared c
    rw [word, at'] at compared
    have offers : (u.sendCompared c).offered c = some (reply.letter, .dialogue) := by
      have replying' : ((u.sendCompared c).circuit c).dialogue.state = .replying := by rw [compared]; exact replying
      rw [State.offered_dialogue (by rw [State.isParty, compared]; exact party) (.inr (.inr replying')),
        State.dialogueSequence_reply replying' (by rw [compared]; exact owed), compared]
      rfl
    refine ⟨takeOffered c (u.sendCompared c), ?_, ?_, ?_⟩
    · refine congrArg Host.Outcome.next ?_
      rw [characterBoundary_eq sending due, tellSource_dialogue, ← hu, nextCharacter_plain]
      · exact .inl (by rw [word]; exact valid)
      · rw [State.inService, at']
        exact service
      · exact State.preempts_of_none (by rw [at', none]; rfl)
    · rw [takeOffered_dialogue offers]
      exact (change.set _).set _
    · rw [takeOffered_dialogue offers, State.circuit_setCircuit_self, compared]
      cases reply <;> rfl
  · have boundary := s.circuit_atBoundary c
    obtain ⟨u, form, only, at'⟩ := dialogueCharLeft_lastReply (s := s.atBoundary c) (c := c) (reply := reply)
      (by rw [boundary]; exact replying) (by rw [boundary]; exact owed) (by rw [boundary]; exact last)
    refine ⟨u, State.onlyCircuit_trans (l := []) (s.onlyCircuit_setCircuit c _) only, ?_, ?_⟩
    · refine congrArg Host.Outcome.next ?_
      rw [characterBoundary_eq sending due, tellSource_dialogue, form]
      rfl
    · rw [at', boundary]
      rfl
  · obtain ⟨w, form, only, at'⟩ := silenceExpiry_ends silence (by rw [text]; decide) held
    have filling' : (w.recogniser c).filling = some r := by rw [State.recogniser, at']; exact filling
    obtain ⟨u, hu⟩ : ∃ u, u = w.updFlags r fun f => { f with truncated := true } := ⟨_, rfl⟩
    have marks : markTruncated c w = u := by rw [hu, markTruncated, filling']
    have circuit : u.circuit c = { s.circuit c with recogniser := { s.recogniser c with silence := none } } := by
      rw [hu]
      exact at'
    have pair : s.onlyPair u c r [] := hu ▸ (State.onlyPair_of_onlyCircuit r only).setRecord rfl
    obtain ⟨v, ends, only', at''⟩ := endMessage_silence_inbound (s := u) (c := c) (n := n)
      (by rw [State.isParty, circuit]; exact party) (by rw [circuit]; exact inbound) (by rw [circuit]; exact selected)
      (by rw [State.recogniser, circuit]; exact running)
    have reports : (u.circuit c).failureReports c n = (s.circuit c).failureReports c n := by rw [circuit]; rfl
    rw [reports] at only'
    obtain ⟨form', others, records⟩ := State.onlyPair_trans (l := []) pair (State.onlyPair_of_onlyCircuit r only')
    refine ⟨v, ?_, form', others, ?_, records, ?_⟩
    · rw [← ends, ← marks, ← form]
      rfl
    · rw [at'', circuit, CircuitState.ended_filling (r := r) _ _ (by exact filling) (by exact running), ← held]
      rfl
    · rw [State.message_of_onlyCircuit only', hu, State.updFlags_eq, State.message_setMessage_self,
        State.message_of_onlyCircuit only]

end

section
/-! PROOF. The answers a selected or polled station gives (R119, R125 to R131). -/

namespace Sys2Proof.Machine

/-! ### A character of an awaited answer (R119, R125) -/

/-- The character as an awaited answer reads it: in the answer case (R125). -/
def Dialogue.read (d : Dialogue) (value : RelayChar) (mutilated : Bool) : RxChar :=
  { value := value, mutilated := mutilated, shift := shiftAfter d.answerShift value mutilated }

/-- The dialogue waits for an answer, a receipt or a poll reply. -/
abbrev DialogueState.awaits (state : DialogueState) : Prop :=
  state = .answerWait ∨ state = .receiptWait ∨ state = .pollWait

section Reading

variable (d : Dialogue) (mark : Bool) (bits : RelayChar)

/-- An answer is read as a message is, in its own case (R20, R125). -/
theorem Dialogue.read_eq (value : RelayChar) (mutilated : Bool) :
    d.read value mutilated = { Recogniser.reset with shift := d.answerShift }.read value mutilated := rfl

theorem Dialogue.isShift_read : (d.read (sampledValue mark bits) (!mark)).isShift = true ↔
    mark = true ∧ (bits = 4 ∨ bits = 5) := by
  rw [Dialogue.read_eq, RxChar.isShift_read]

/-- Only a shift character changes the answer case (R20). -/
theorem Dialogue.shift_read {d : Dialogue} {mark : Bool} {bits : RelayChar}
    (h : ¬ (d.read (sampledValue mark bits) (!mark)).isShift = true) :
    shiftAfter d.answerShift (sampledValue mark bits) (!mark) = d.answerShift := by
  rw [Dialogue.isShift_read] at h
  cases mark with
  | false => rfl
  | true =>
    obtain ⟨notFigs, notLtrs⟩ := not_or.mp fun shift => h ⟨rfl, shift⟩
    have notFigs' : bits ≠ chFigs := notFigs
    have notLtrs' : bits ≠ chLtrs := notLtrs
    simp [shiftAfter, sampledValue, notFigs', notLtrs']

/-- One letter, in letters case (R20). -/
theorem Dialogue.isTheLetter_read {d : Dialogue} {mark : Bool} {bits : RelayChar} (value : RelayChar)
    (h : ¬ (d.read (sampledValue mark bits) (!mark)).isShift = true) :
    (d.read (sampledValue mark bits) (!mark)).isTheLetter value = true ↔
      mark = true ∧ d.answerShift = .letters ∧ bits = value := by
  have kept := Dialogue.shift_read h
  cases mark with
  | false => simp [RxChar.isTheLetter, Dialogue.read]
  | true =>
    rw [Dialogue.read, kept]
    simp [RxChar.isTheLetter, sampledValue]

end Reading

/-- The state in which an awaited character is compared. -/
def State.awaited (s : State) (c : Circuit) (mark : Bool) (bits : RelayChar) : State :=
  (s.sampled c mark).updDialogue c fun d =>
    { d with answerShift := shiftAfter (s.circuit c).dialogue.answerShift (sampledValue mark bits) (!mark) }

section Awaited

variable {s : State} {c : Circuit} {mark : Bool} {k : Nat} {bits : RelayChar} {n : StationIdx}

theorem State.awaited_spec (quiet : s.quietWord c) : s.onlyCircuit (s.awaited c mark bits) c [] ∧
    (s.awaited c mark bits).circuit c = { s.circuit c with
      line := ((s.sampled c mark).circuit c).line
      dialogue := { (s.circuit c).dialogue with
        answerShift := shiftAfter (s.circuit c).dialogue.answerShift (sampledValue mark bits) (!mark) } } := by
  obtain ⟨only, at', -⟩ := s.sampled_quiet mark quiet
  refine ⟨only.set _, ?_⟩
  rw [State.awaited, State.updDialogue_eq, State.circuit_setCircuit_self, at']

theorem exec_characterReceived_awaited (receiver : (s.circuit c).line.receiver = .assembling k bits) (due : 95 ≤ k)
    (service : s.inService c = true) (party : s.isParty c = true) (quiet : s.quietWord c)
    (waits : (s.circuit c).dialogue.state.awaits) :
    exec (.characterReceived c mark) s = .next (awaitedChar c (sampledValue mark bits) (!mark) (s.sampled c mark)) := by
  have at' := (s.sampled_quiet mark quiet).2.1
  have waits' : ((s.sampled c mark).circuit c).dialogue.state.awaits := by rw [at']; exact waits
  rw [exec_characterReceived receiver due, handOn_party _ _ ((s.inService_sampled c mark).trans service)
    ((s.isParty_sampled c mark).trans party), dialogueChar]
  rcases waits' with h | h | h <;> simp only [h]

/-- What an awaited character other than a shift is compared with (R125, R127, R130). -/
def awaitedStep (c : Circuit) (n : StationIdx) (ch : RxChar) (s : State) : DialogueState → State
  | .answerWait => answerChar c n ch s
  | .receiptWait => receiptChar c n ch s
  | .pollWait => pollChar c n ch s
  | _ => s

theorem awaitedChar_shift (quiet : s.quietWord c)
    (shift : ((s.circuit c).dialogue.read (sampledValue mark bits) (!mark)).isShift = true) :
    awaitedChar c (sampledValue mark bits) (!mark) (s.sampled c mark) = s.awaited c mark bits := by
  have dialogue : ((s.sampled c mark).circuit c).dialogue = (s.circuit c).dialogue := by
    rw [(s.sampled_quiet mark quiet).2.1]
  rw [Dialogue.read] at shift
  simp only [awaitedChar, dialogue, shift, State.awaited]

theorem awaitedChar_compares (quiet : s.quietWord c) (selected : (s.circuit c).dialogue.selected = some n)
    (other : ¬ ((s.circuit c).dialogue.read (sampledValue mark bits) (!mark)).isShift = true) :
    awaitedChar c (sampledValue mark bits) (!mark) (s.sampled c mark) = awaitedStep c n
      ((s.circuit c).dialogue.read (sampledValue mark bits) (!mark)) (s.awaited c mark bits)
      (s.circuit c).dialogue.state := by
  have dialogue : ((s.sampled c mark).circuit c).dialogue = (s.circuit c).dialogue := by
    rw [(s.sampled_quiet mark quiet).2.1]
  rw [Bool.not_eq_true, Dialogue.read] at other
  cases state : (s.circuit c).dialogue.state <;>
    simp only [awaitedChar, dialogue, other, State.awaited, awaitedStep, Dialogue.read, selected, state]

end Awaited

/-! ### The characters of an answer (R125) -/

section Answer

variable {s : State} {c : Circuit} {n : StationIdx} {ch : RxChar}

theorem advanceMatch_eq {m : Nat} (pos : (s.circuit c).dialogue.matchPos = m) :
    advanceMatch c s = s.updDialogue c fun d => { d with matchPos := m + 1 } := by
  simp [advanceMatch, pos]

theorem answerChar_first (pos : (s.circuit c).dialogue.matchPos = 0) : answerChar c n ch s =
    if ch.isTheLetter (s.station c n).first then advanceMatch c s else failedAttempt c s := by
  simp only [answerChar, pos, if_true]

theorem answerChar_second (pos : (s.circuit c).dialogue.matchPos = 1) : answerChar c n ch s =
    if ch.isTheLetter (s.station c n).second then goodAnswer c n s else failedAttempt c s := by
  simp only [answerChar, pos, one_ne_zero, if_false]

theorem pollChar_first (reply : (s.circuit c).dialogue.pollReply = none) : pollChar c n ch s =
    if ch.isTheLetter chN then fixReply c .nothing s
    else if ch.isTheLetter chH then fixReply c .traffic s
    else failedAttempt c s := by
  simp only [pollChar, reply]

theorem pollChar_nothing (reply : (s.circuit c).dialogue.pollReply = some .nothing) : pollChar c n ch s =
    if ch.isTheLetter chN then pollNothing c n s else failedAttempt c s := by
  simp only [pollChar, reply]

theorem pollChar_traffic (reply : (s.circuit c).dialogue.pollReply = some .traffic) : pollChar c n ch s =
    if !ch.isTheLetter chH then failedAttempt c s
    else if (s.circuit c).dialogue.matchPos = 1 then advanceMatch c s
    else pollTraffic c n s := by
  simp only [pollChar, reply]

end Answer

/-! ### A failed receipt (R97, R127, R128) -/

/-- A failed attempt in RECEIPT_WAIT returns the delivery with its saved number (R128). -/
theorem failedAttempt_receipt {s : State} {c : Circuit} {n : StationIdx} {r : RecordIdx} {k : SlotIdx} {d : Delivery}
    (waits : (s.circuit c).dialogue.state = .receiptWait) (selected : (s.circuit c).dialogue.selected = some n)
    (active : (s.circuit c).send.active = some (r, k)) (at' : s.delivery r k = some d) (own : d.circuit = c)
    (party : s.isParty c = true) (hold : (s.circuit c).control.holdPending = false)
    (alone : ∀ j : SlotIdx, j ≠ k → ∀ d', s.delivery r j = some d' →
      ¬ (d'.state = .queued ∧ d'.circuit = c ∧ d'.station = d.station)) :
    ∃ u, failedAttempt c s = judge c u ∧ s.onlyPair u c r ((s.circuit c).failureReports c n) ∧
    u.circuit c = { ((s.circuit c).returned (s.message r).rank ⟨r, k, sentLength (s.message r) d.codes⟩).attemptFailed n
      with dialogue := (s.circuit c).dialogue.quieted } ∧
    u.message r = (s.message r).placed k (d.returned true) := by
  obtain ⟨w, hw⟩ : ∃ w, w = s.updDialogue c fun d => { d with answerTimer := none } := ⟨_, rfl⟩
  have stops : s.onlyCircuit w c [] := hw ▸ s.onlyCircuit_setCircuit c _
  have atW : w.circuit c = { s.circuit c with
      dialogue := { (s.circuit c).dialogue with answerTimer := none } } := by
    rw [hw, State.updDialogue_eq, State.circuit_setCircuit_self]
  have delivery (i : SlotIdx) : w.delivery r i = s.delivery r i := State.delivery_of_onlyCircuit stops r i
  have message : w.message r = s.message r := State.message_of_onlyCircuit stops r
  obtain ⟨returns, circuit, record⟩ := returnDelivery_spec (s := w) (c := c) true (by rw [atW]; exact active)
    ((delivery k).trans at') own (State.absorbable_party own (by rw [State.isParty, atW]; exact party) (fun j other d' h =>
      alone j other d' ((delivery j).symm.trans h)))
  obtain ⟨v, hv⟩ : ∃ v, v = returnDelivery c true w := ⟨_, rfl⟩
  rw [← hv, atW, message] at circuit
  rw [← hv] at returns
  rw [← hv, message] at record
  have stays : transmissionEnded c v = v := transmissionEnded_stays (by rw [circuit]; exact hold)
  obtain ⟨fails, at''⟩ := stationFailed_spec c n v
  have reports : (v.circuit c).failureReports c n = (s.circuit c).failureReports c n := by rw [circuit]; rfl
  rw [reports] at fails
  obtain ⟨quiets, at3⟩ := enterQuiet_spec c (stationFailed c n v)
  refine ⟨enterQuiet c (stationFailed c n v), ?_, ?_, ?_, ?_⟩
  · simp only [failedAttempt, ← hw, if_pos waits, selected, ← hv, stays, quietAndJudge]
  · have tail : v.onlyCircuit (enterQuiet c (stationFailed c n v)) c ((s.circuit c).failureReports c n) := by
      simpa using State.onlyCircuit_trans fails quiets
    exact State.onlyPair_trans (l := []) (State.onlyPair_trans (l := []) (State.onlyPair_of_onlyCircuit r stops) returns)
      (State.onlyPair_of_onlyCircuit r tail)
  · rw [at3, at'', circuit]
    rfl
  · rw [State.message_of_onlyCircuit quiets, State.message_of_onlyCircuit fails, record]

/-! ### A good answer (R125, R126) -/

/-- The station has answered, and the answer timer is stopped (R125, R127). -/
def State.answeredBy (s : State) (c : Circuit) (n : StationIdx) : State :=
  (stationGood c n s).updDialogue c fun d => { d with answerTimer := none }

theorem State.answeredBy_spec (s : State) (c : Circuit) (n : StationIdx) : s.onlyCircuit (s.answeredBy c n) c [] ∧
    (s.answeredBy c n).circuit c = { s.circuit c with
      dialogue := { (s.circuit c).dialogue with answerTimer := none }
      stations := (s.circuit c).stations.set n { (s.circuit c).stations[n] with failures := 0 } } := by
  refine ⟨State.onlyCircuit.set (s.onlyCircuit_setCircuit c _) _, ?_⟩
  simp [State.answeredBy, stationGood]

theorem goodAnswer_some {s : State} {c : Circuit} {n : StationIdx} {e : QueueEntry}
    (h : (s.answeredBy c n).answerDelivery c n = some e) : goodAnswer c n s =
      (startTransmission c e (s.answeredBy c n)).updDialogue c fun d => { d with state := .delivering } := by
  unfold State.answeredBy at h ⊢
  simp only [goodAnswer, h]

theorem goodAnswer_none {s : State} {c : Circuit} {n : StationIdx}
    (h : (s.answeredBy c n).answerDelivery c n = none) : goodAnswer c n s = quietAndJudge c (s.answeredBy c n) := by
  unfold State.answeredBy at h ⊢
  simp only [goodAnswer, h]

/-- What waits for a station is found in the circuit's queues and the records (R125). -/
theorem State.firstForStation_congr {s t : State} {c : Circuit} (messages : t.messages = s.messages)
    (queues : (t.circuit c).queues = (s.circuit c).queues) (n : StationIdx) :
    t.firstForStation c n = s.firstForStation c n := by
  have message (r : RecordIdx) : t.message r = s.message r := by rw [State.message, messages, State.message]
  have entry : t.entryStation = s.entryStation := funext fun e => by
    simp only [State.entryStation, State.delivery, message]
  unfold State.firstForStation State.queue
  rw [queues, entry]

/-! ### A poll reply (R130) -/

/-- STATION for a station that answers again (R129, R130). -/
def CircuitState.answerReports (x : CircuitState) (c : Circuit) (n : StationIdx) : List (Place × Word × ReportKind) :=
  if x.stations[n].answering then [] else [(.circuit c (some n), 0, .station true)]

theorem stationAnswers_spec (c : Circuit) (n : StationIdx) (s : State) :
    s.onlyCircuit (stationAnswers c n s) c ((s.circuit c).answerReports c n) ∧
    (stationAnswers c n s).circuit c = { s.circuit c with
      stations := (s.circuit c).stations.set n { (s.circuit c).stations[n] with failures := 0, answering := true } } := by
  obtain ⟨change, at'⟩ := s.answering_spec c n
  have form : stationAnswers c n s = if (s.circuit c).stations[n].answering = true then s.answering c n
      else (s.answering c n).raise (.circuit c (some n)) 0 (.station true) := rfl
  rw [form, CircuitState.answerReports]
  split
  · exact ⟨change, at'⟩
  · exact ⟨State.onlyCircuit_trans (l := []) change (State.onlyCircuit_raise _ c _ _ _),
      (State.circuit_raise _ c _ _ _).trans at'⟩

end Sys2Proof.Machine

open Sys2Proof Sys2Proof.Machine

/-- Settles O59: the good answer, and the characters of an awaited answer, receipt or poll reply one by one. -/
theorem secondCallLetterStartsTheDelivery : Obligations.SecondCallLetterStartsTheDelivery := by
  unfold Obligations.SecondCallLetterStartsTheDelivery
  refine ⟨fun c k n s receiver due party ready valid state selected pos letters high => ?_,
    fun c k n mark bits s receiver due party service quiet selected => ?_⟩
  · have other : ¬ ((s.circuit c).dialogue.read (sampledValue true (s.station c n).second) (!true)).isShift = true := by
      rw [Dialogue.isShift_read]
      rintro ⟨-, h | h⟩ <;> rw [h] at high <;> exact absurd high (by decide)
    have quiet : s.quietWord c := .inl valid
    have service : s.inService c = true := by simp [State.inService, ready]
    obtain ⟨only, at'⟩ := s.awaited_spec (mark := true) (bits := (s.station c n).second) quiet
    rw [Dialogue.shift_read other] at at'
    obtain ⟨w, hw⟩ : ∃ w, w = s.awaited c true (s.station c n).second := ⟨_, rfl⟩
    rw [← hw] at only at'
    obtain ⟨answers, at''⟩ := w.answeredBy_spec c n
    obtain ⟨u, hu⟩ : ∃ u, u = w.answeredBy c n := ⟨_, rfl⟩
    rw [← hu] at answers at''
    have change : s.onlyCircuit u c [] := State.onlyCircuit_trans (l := []) only answers
    have circuit : u.circuit c = { s.circuit c with
        line := ((s.sampled c true).circuit c).line
        dialogue := { (s.circuit c).dialogue with answerTimer := none }
        stations := (s.circuit c).stations.set n { (s.circuit c).stations[n] with failures := 0 } } := by
      rw [at'', at']
    have first : u.answerDelivery c n = s.firstForStation c n := by
      rw [State.answerDelivery, circuit, if_pos ready,
        State.firstForStation_congr (s := s) (by rw [change.1]) (by rw [circuit])]
    have heard : exec (.characterReceived c true) s = .next (goodAnswer c n w) := by
      have isSecond : ((s.circuit c).dialogue.read (sampledValue true (s.station c n).second) (!true)).isTheLetter
          (w.station c n).second = true := by
        have station : w.station c n = s.station c n := by
          rw [State.station, at']
          rfl
        rw [station, Dialogue.isTheLetter_read _ other]
        exact ⟨rfl, letters, rfl⟩
      rw [exec_characterReceived_awaited receiver due service party quiet (.inl state),
        awaitedChar_compares quiet selected other, state, ← hw, awaitedStep, answerChar_second (by rw [at', pos]),
        if_pos isSecond]
    refine ⟨u, change, ?_, ?_, ?_, fun e found => ?_, fun none => ?_⟩
    · rw [circuit]
    · rw [circuit]
      exact (s.sampled_quiet true quiet).2.2.1
    · rw [circuit]
      exact (s.sampled_quiet true quiet).2.2.2
    · rw [heard, goodAnswer_some (by rw [← hu, first, found]), ← hu]
    · have stopped : (u.circuit c).dialogue.answerTimer = .none := by rw [circuit]
      rw [heard, goodAnswer_none (by rw [← hu, first, none]), ← hu, quietAndJudge, enterQuiet, ← stopped]
      rfl
  intro x d isShift isLetter waits quieted goesOn failures fails told failed expects answers answered
  obtain ⟨ch, hch⟩ : ∃ ch, ch = d.read (sampledValue mark bits) (!mark) := ⟨_, rfl⟩
  obtain ⟨w, hw⟩ : ∃ w, w = s.awaited c mark bits := ⟨_, rfl⟩
  obtain ⟨only, at'⟩ := s.awaited_spec (mark := mark) (bits := bits) quiet
  rw [← hw] at only at'
  have shifts : ch.isShift = true ↔ isShift := hch ▸ Dialogue.isShift_read d mark bits
  have letter (l : RelayChar) (other : ¬ isShift) : ch.isTheLetter l = true ↔ isLetter l :=
    hch ▸ Dialogue.isTheLetter_read l (mt (hch ▸ shifts).mp other)
  have letterMoves {l : RelayChar} (high : 6 ≤ l.toNat) (is : isLetter l) : ¬ isShift := fun shift => by
    obtain ⟨-, -, same⟩ := is
    obtain ⟨-, shift⟩ := shift
    rw [← same] at high
    rcases shift with h | h <;> rw [h] at high <;> exact absurd high (by decide)
  have runs (awaits : waits) (other : ¬ isShift) :
      exec (.characterReceived c mark) s = .next (awaitedStep c n ch w d.state) := by
    rw [exec_characterReceived_awaited receiver due service party quiet awaits,
      awaitedChar_compares quiet selected (mt (hch ▸ shifts).mp other), ← hch, ← hw]
  have circuit (other : ¬ isShift) : w.circuit c = { x with line := ((s.sampled c mark).circuit c).line } := by
    have kept := Dialogue.shift_read (mt (hch ▸ shifts).mp other)
    rw [at', kept]
  have moves (awaits : waits) (other : ¬ isShift) {f : Dialogue → Dialogue}
      (step : awaitedStep c n ch w d.state = w.updDialogue c f) : goesOn (f d) := by
    refine ⟨w.updDialogue c f, (runs awaits other).trans (congrArg _ step), only.set _, ?_⟩
    rw [State.updDialogue_eq, State.circuit_setCircuit_self, circuit other]
  have station (other : ¬ isShift) : w.station c n = s.station c n := by rw [State.station, circuit other]; rfl
  have traffic (state : d.state = .pollWait) (reply : d.pollReply = some .traffic) (pos : d.matchPos = 2)
      (is : isLetter 13) : ∃ v, exec (.characterReceived c mark) s = .next (startMessage c v) ∧
      s.onlyCircuit v c answered ∧ v.circuit c = { answers with
        line := ((s.sampled c mark).circuit c).line
        dialogue := { d with
          state := .inbound, answerTimer := none, pollReply := none, replyOwed := none, lineEndWait := false }
        recogniser := { x.recogniser with shift := .letters } } ∧ v.inboundStation c = some n := by
    have other := letterMoves (by decide) is
    have pos' : (w.circuit c).dialogue.matchPos = 2 := by rw [circuit other]; exact pos
    have isH : ch.isTheLetter chH = true := (letter chH other).mpr is
    obtain ⟨v, hv⟩ : ∃ v, pollTraffic c n w = startMessage c v ∧ v = ((stationAnswers c n w).updDialogue c fun d =>
        { d with state := .inbound, answerTimer := none, pollReply := none, replyOwed := none, lineEndWait := false }
      ).updRecogniser c fun q => { q with shift := .letters } := ⟨_, rfl, rfl⟩
    obtain ⟨heard, hv⟩ := hv
    obtain ⟨answers', at''⟩ := stationAnswers_spec c n w
    have reports : (w.circuit c).answerReports c n = answered := by rw [circuit other]; rfl
    rw [reports] at answers'
    have atV : v.circuit c = { answers with
        line := ((s.sampled c mark).circuit c).line
        dialogue := { d with
          state := .inbound, answerTimer := none, pollReply := none, replyOwed := none, lineEndWait := false }
        recogniser := { x.recogniser with shift := .letters } } := by
      rw [hv, State.updRecogniser_eq, State.circuit_setCircuit_self, State.updDialogue_eq, State.circuit_setCircuit_self,
        at'', circuit other]
    refine ⟨v, ?_, ?_, atV, ?_⟩
    · rw [runs (.inr (.inr state)) other, state, awaitedStep, pollChar_traffic (by rw [circuit other]; exact reply),
        if_neg (by simp [isH]), pos', if_neg (by decide), heard]
    · exact hv ▸ State.onlyCircuit_trans (l := []) only ((answers'.set _).set _)
    · have party' : v.isParty c = true := by rw [State.isParty, atV]; exact party
      rw [State.inboundStation, State.partyStation, if_pos party', atV]
      exact selected
  refine ⟨fun awaits shift => ?_, fun l high is expected => ⟨fun state pos => ?_, fun state reply => ?_,
    fun state reply pos => ?_⟩, fun other unexpected within => ⟨fun state => ?_, fun r j a state active atSlot own hold alone => ?_⟩,
    fun r j a state is pos active atSlot => ?_, fun state reply is => ?_, fun state reply pos is => ⟨fun r lowest lawful => ?_,
    fun full => ?_⟩⟩
  · have turned : shiftAfter d.answerShift (sampledValue mark bits) (!mark) = if bits = 5 then .letters else .figures := by
      obtain ⟨rfl, rfl | rfl⟩ := shift <;> rfl
    refine ⟨w, ?_, only, ?_⟩
    · rw [exec_characterReceived_awaited receiver due service party quiet awaits,
        awaitedChar_shift quiet (hch ▸ shifts.mpr shift), hw]
    · rw [at', turned]
  · have other := letterMoves high is
    refine moves (state.imp_right .inl) other (f := fun d => { d with matchPos := 1 }) ?_
    have pos' : (w.circuit c).dialogue.matchPos = 0 := by rw [circuit other]; exact pos
    rw [← advanceMatch_eq pos']
    rcases state with state | state
    · have first : l = (s.station c n).first := by simpa [expects, state, pos] using expected
      rw [state, awaitedStep, answerChar_first pos', if_pos]
      rw [station other, ← first]
      exact (letter l other).mpr is
    · have isR : l = chR := by simpa [expects, state, chR] using expected
      rw [state, awaitedStep, receiptChar, if_neg, if_pos pos']
      rw [← isR]
      simpa using (letter l other).mpr is
  · have other := letterMoves high is
    have reply' : (w.circuit c).dialogue.pollReply = none := by rw [circuit other]; exact reply
    have which : l = 19 ∨ l = 13 := by simpa [expects, state, reply] using expected
    refine moves (.inr (.inr state)) other
      (f := fun d => { d with pollReply := some (if l = 19 then .nothing else .traffic), matchPos := 1 }) ?_
    rw [state, awaitedStep, pollChar_first reply']
    rcases which with rfl | rfl
    · rw [if_pos ((letter chN other).mpr is)]
      rfl
    · have notN : ¬ ch.isTheLetter chN = true := fun isN =>
        absurd (is.2.2.symm.trans ((letter chN other).mp isN).2.2) (by decide)
      rw [if_neg notN, if_pos ((letter chH other).mpr is)]
      rfl
  · have other := letterMoves high is
    have reply' : (w.circuit c).dialogue.pollReply = some .traffic := by rw [circuit other]; exact reply
    have pos' : (w.circuit c).dialogue.matchPos = 1 := by rw [circuit other]; exact pos
    have isH : l = chH := by simpa [expects, state, reply, chH] using expected
    refine moves (.inr (.inr state)) other (f := fun d => { d with matchPos := 2 }) ?_
    rw [state, awaitedStep, pollChar_traffic reply', if_neg, if_pos pos', advanceMatch_eq pos']
    rw [← isH]
    simpa using (letter l other).mpr is
  · have unheard {l : RelayChar} (e : expects l) : ¬ ch.isTheLetter l = true :=
      fun is => unexpected l ((letter l other).mp is) e
    have failing : awaitedStep c n ch w d.state = failedAttempt c w := by
      rcases state with state | state
      · have early := within state
        obtain pos | pos : d.matchPos = 0 ∨ d.matchPos = 1 := by omega
        · rw [state, awaitedStep, answerChar_first (by rw [circuit other]; exact pos), station other,
            if_neg (unheard (.inl ⟨state, pos, rfl⟩))]
        · rw [state, awaitedStep, answerChar_second (by rw [circuit other]; exact pos), station other,
            if_neg (unheard (.inr (.inl ⟨state, pos, rfl⟩)))]
      · rw [state, awaitedStep]
        cases reply : d.pollReply with
        | none =>
          rw [pollChar_first (by rw [circuit other]; exact reply),
            if_neg (unheard (l := chN) (.inr (.inr (.inr (.inl ⟨state, reply, .inl rfl⟩))))),
            if_neg (unheard (l := chH) (.inr (.inr (.inr (.inl ⟨state, reply, .inr rfl⟩)))))]
        | some awaited =>
          cases awaited with
          | nothing =>
            rw [pollChar_nothing (by rw [circuit other]; exact reply),
              if_neg (unheard (l := chN) (.inr (.inr (.inr (.inr (.inl ⟨state, reply, rfl⟩))))))]
          | traffic =>
            rw [pollChar_traffic (by rw [circuit other]; exact reply), if_pos]
            simpa using unheard (l := chH) (.inr (.inr (.inr (.inr (.inr ⟨state, reply, rfl⟩)))))
    have away : (w.circuit c).dialogue.state ≠ .receiptWait := by
      rw [circuit other]
      rcases state with h | h <;> exact fun e => by rw [h] at e; cases e
    obtain ⟨u, fails', change, at''⟩ := failedAttempt_waiting (n := n) away (by rw [circuit other]; exact selected)
    have reports : (w.circuit c).failureReports c n = told := by rw [circuit other]; rfl
    rw [reports] at change
    refine ⟨u, ?_, State.onlyCircuit_trans (l := []) only change, ?_⟩
    · rw [runs (state.imp_right .inr) other, failing, fails']
    · rw [at'', circuit other]
      rfl
  · have unheard : ¬ ch.isTheLetter chR = true := fun is =>
      unexpected chR ((letter chR other).mp is) (.inr (.inr (.inl ⟨state, rfl⟩)))
    have failing : awaitedStep c n ch w d.state = failedAttempt c w := by
      rw [state, awaitedStep, receiptChar, if_pos (by simpa using unheard)]
    have delivery (i : SlotIdx) : w.delivery r i = s.delivery r i := State.delivery_of_onlyCircuit only r i
    intro m length
    obtain ⟨u, fails', pair, at'', record⟩ := failedAttempt_receipt (s := w) (n := n) (r := r) (k := j) (d := a)
      (by rw [circuit other]; exact state) (by rw [circuit other]; exact selected) (by rw [circuit other]; exact active)
      ((delivery j).trans atSlot) own (by rw [State.isParty, circuit other]; exact party)
      (by rw [circuit other]; exact hold) (fun i apart a' h => alone i apart a' ((delivery i).symm.trans h))
    have reports : (w.circuit c).failureReports c n = told := by rw [circuit other]; rfl
    rw [reports] at pair
    obtain ⟨form, others, records⟩ := State.onlyPair_trans (l := []) (State.onlyPair_of_onlyCircuit r only) pair
    refine ⟨u, ?_, form, others, ?_, records, ?_⟩
    · rw [runs (.inr (.inl state)) other, failing, fails']
    · rw [at'', circuit other, State.message_of_onlyCircuit only]
      rfl
    · rw [record, State.message_of_onlyCircuit only]
      rfl
  · have other := letterMoves (by decide) is
    obtain ⟨answers', at''⟩ := w.answeredBy_spec c n
    obtain ⟨v, hv⟩ : ∃ v, v = w.answeredBy c n := ⟨_, rfl⟩
    rw [← hv] at answers' at''
    have change : s.onlyCircuit v c [] := State.onlyCircuit_trans (l := []) only answers'
    have heard : awaitedStep c n ch w d.state = afterTransmission c (deliverActive c v) := by
      have pos' : (w.circuit c).dialogue.matchPos = 1 := by rw [circuit other]; exact pos
      have isR : ch.isTheLetter chR = true := (letter chR other).mpr is
      rw [state, awaitedStep, receiptChar, if_neg (by simp [isR]), pos', if_neg one_ne_zero, hv]
      rfl
    have party' : v.isParty c = true := by rw [State.isParty, at'', circuit other]; exact party
    have active' : (v.circuit c).send.active = some (r, j) := by rw [at'', circuit other]; exact active
    have delivery : v.delivery r j = some a := (State.delivery_of_onlyCircuit change r j).trans atSlot
    have tag : v.tag r = s.tag r := by rw [State.tag, State.message_of_onlyCircuit change, State.tag]
    obtain ⟨ends, at3, record⟩ := endActive_spec (s := v) (c := c) .done delivery
    obtain ⟨form, others, records⟩ := State.onlyPair_trans (l := []) (State.onlyPair_of_onlyCircuit r change)
      (ends.report (.circuit c (some a.station)) (s.tag r) (.delivered j (x.send.channel.getD 0)))
    have channel : (v.circuit c).send.channel = x.send.channel := by rw [at'', circuit other]
    refine ⟨_, ?_, form, others, ?_, records, ?_⟩
    · rw [runs (.inr (.inl state)) other, heard,
        afterTransmission_party ((KeepsLines.refl.deliverActive.isParty c).trans party'), deliverActive_eq active' delivery,
        State.deliveryPlace_party a party', tag, channel]
      rfl
    · rw [State.circuit_raise, at3, at'', circuit other]
    · rw [State.message_raise, record, State.message_of_onlyCircuit change]
      rfl
  · have other := letterMoves (by decide) is
    obtain ⟨answers', at''⟩ := stationAnswers_spec c n w
    obtain ⟨quiets, at3⟩ := enterQuiet_spec c (stationAnswers c n w)
    have reports : (w.circuit c).answerReports c n = answered := by rw [circuit other]; rfl
    rw [reports] at answers'
    have change : w.onlyCircuit (enterQuiet c (stationAnswers c n w)) c answered := by
      simpa using State.onlyCircuit_trans answers' quiets
    refine ⟨enterQuiet c (stationAnswers c n w), ?_, State.onlyCircuit_trans (l := []) only change, ?_⟩
    · rw [runs (.inr (.inr state)) other, state, awaitedStep, pollChar_nothing (by rw [circuit other]; exact reply),
        if_pos ((letter chN other).mpr is)]
      rfl
    · rw [at3, at'', circuit other]
      rfl
  · obtain ⟨v, heard, change, atV, station'⟩ := traffic state reply pos is
    have load : v.silenceLoad c = s.silenceLoad c := by rw [State.silenceLoad, atV]; rfl
    obtain ⟨grants, circuit', record, -⟩ := startMessage_grants (s := v) (c := c)
      (State.suspensionLawful_congr (by rw [change.1]) (by rw [change.1]) (by rw [change.1]) lawful)
      ((State.lowestFree_congr (by rw [change.1])).trans lowest)
    obtain ⟨form, others, records⟩ := State.grantedTo_after change grants
    refine ⟨startMessage c v, heard, form, others, ?_, records, ?_⟩
    · rw [circuit', load, State.recogniser, atV]
      rfl
    · rw [record, State.message_of_onlyCircuit change, station']
  · obtain ⟨v, heard, change, atV, -⟩ := traffic state reply pos is
    have load : v.silenceLoad c = s.silenceLoad c := by rw [State.silenceLoad, atV]; rfl
    obtain ⟨discards, circuit'⟩ := startMessage_discards (s := v) (c := c)
      ((State.lowestFree_congr (by rw [change.1])).trans full)
    refine ⟨startMessage c v, heard, ?_, ?_⟩
    · simpa using State.onlyCircuit_trans change discards
    · rw [circuit', load, State.recogniser, atV]

end

section
/-! PROOF. The route unit places every destination position once, by its route entry (R78, R79, R86, R87). -/

namespace Sys2Proof.Machine

/-! ### Positions and groups (R87) -/

theorem onePosition_getLsbD (p : Nat) {i : Nat} (h : i < 8) :
    (onePosition p).getLsbD i = true ↔ p = i := by
  rw [onePosition, Nat.one_shiftLeft, BitVec.natCast_eq_ofNat, BitVec.getLsbD_ofNat, Nat.testBit_two_pow]
  simp only [h, decide_true, Bool.true_and, decide_eq_true_eq]

/-- Position i stands in a group of target t. -/
def inGroup (groups : List (Target × PositionSet)) (t : Target) (i : Nat) : Prop :=
  ∃ g ∈ groups, g.1 = t ∧ g.2.getLsbD i = true

theorem inGroup_cons (g : Target × PositionSet) (groups : List (Target × PositionSet)) (t : Target) (i : Nat) :
    inGroup (g :: groups) t i ↔ (g.1 = t ∧ g.2.getLsbD i = true) ∨ inGroup groups t i := by
  simp [inGroup]

theorem inGroup_addToGroup (t t' : Target) (codes : PositionSet) (groups : List (Target × PositionSet)) (i : Nat) :
    inGroup (addToGroup t codes groups) t' i ↔ inGroup groups t' i ∨ (t = t' ∧ codes.getLsbD i = true) := by
  induction groups with
  | nil => simp [addToGroup, inGroup]
  | cons g rest ih =>
    obtain ⟨t'', codes''⟩ := g
    by_cases same : t = t''
    · subst same
      rw [addToGroup, if_pos rfl, inGroup_cons, inGroup_cons, BitVec.getLsbD_or, Bool.or_eq_true]
      tauto
    · rw [addToGroup, if_neg same, inGroup_cons, inGroup_cons, ih, or_assoc]

theorem mem_fst_addToGroup (t : Target) (codes : PositionSet) (groups : List (Target × PositionSet)) (t' : Target) :
    t' ∈ (addToGroup t codes groups).map Prod.fst ↔ t' = t ∨ t' ∈ groups.map Prod.fst := by
  induction groups with
  | nil => simp [addToGroup]
  | cons g rest ih =>
    obtain ⟨t'', codes''⟩ := g
    by_cases same : t = t''
    · subst same
      simp [addToGroup]
    · simp only [addToGroup, if_neg same, List.map_cons, List.mem_cons, ih]
      tauto

/-- One group for each target (R87). -/
theorem nodup_addToGroup (t : Target) (codes : PositionSet) {groups : List (Target × PositionSet)}
    (apart : (groups.map Prod.fst).Nodup) : ((addToGroup t codes groups).map Prod.fst).Nodup := by
  induction groups with
  | nil => simp [addToGroup]
  | cons g rest ih =>
    obtain ⟨t'', codes''⟩ := g
    obtain ⟨new, restApart⟩ := List.nodup_cons.mp apart
    by_cases same : t = t''
    · subst same
      rw [addToGroup, if_pos rfl]
      exact List.nodup_cons.mpr ⟨new, restApart⟩
    · rw [addToGroup, if_neg same]
      refine List.nodup_cons.mpr ⟨?_, ih restApart⟩
      rw [mem_fst_addToGroup, not_or]
      exact ⟨fun e => same e.symm, new⟩

/-- With one group for each target, a group holds what is grouped for its target. -/
theorem inGroup_of_nodup {groups : List (Target × PositionSet)} (apart : (groups.map Prod.fst).Nodup)
    {g : Target × PositionSet} (mem : g ∈ groups) (i : Nat) : inGroup groups g.1 i ↔ g.2.getLsbD i = true := by
  refine ⟨fun ⟨g', mem', same, bit⟩ => ?_, fun bit => ⟨g, mem, rfl, bit⟩⟩
  rw [List.inj_on_of_nodup_map apart mem mem' same.symm]
  exact bit

/-! ### The fold over the positions (R86, R87) -/

/-- The positions numbered from k. -/
theorem mem_numbered (k : Nat) (l : List Dest) (i : Nat) (d : Dest) :
    (i, d) ∈ numbered k l ↔ k ≤ i ∧ l[i - k]? = some d := by
  induction l generalizing k with
  | nil => simp [numbered]
  | cons d' rest ih =>
    rw [numbered, List.mem_cons, ih, Prod.mk.injEq]
    rcases Nat.lt_trichotomy i k with less | rfl | more
    · exact iff_of_false (by omega) (by omega)
    · rw [Nat.sub_self, List.getElem?_cons_zero, Option.some.injEq]
      exact ⟨fun h => ⟨le_rfl, (h.resolve_right (by omega)).2.symm⟩, fun h => .inl ⟨rfl, h.2.symm⟩⟩
    · rw [show i - k = (i - (k + 1)) + 1 by omega, List.getElem?_cons_succ]
      exact ⟨fun h => ⟨more.le, (h.resolve_left (by omega)).2⟩, fun h => .inr ⟨more, h.2⟩⟩

theorem numberedAt_cons (q : Nat × Dest) (l : List (Nat × Dest)) (i : Nat) (placed : Dest → Prop) :
    (q.1 = i ∧ placed q.2 ∨ ∃ d, (i, d) ∈ l ∧ placed d) ↔ ∃ d, (i, d) ∈ q :: l ∧ placed d := by
  obtain ⟨k, d'⟩ := q
  constructor
  · rintro (⟨rfl, h⟩ | ⟨d, mem, h⟩)
    · exact ⟨d', .head _, h⟩
    · exact ⟨d, .tail _ mem, h⟩
  · rintro ⟨d, mem, h⟩
    cases mem with
    | head => exact .inl ⟨rfl, h⟩
    | tail _ mem => exact .inr ⟨d, mem, h⟩

section Placing

variable (s : State) (p : Precedence)

/-- A position placed (R86, R87). -/
theorem Routed.place_spec (done : Routed) (q : Nat × Dest) {i : Nat} (h : i < 8) :
    ((done.place s p q).localSet.getLsbD i = true ↔
      done.localSet.getLsbD i = true ∨ q.1 = i ∧ s.choose p q.2 = .isLocal) ∧
    ((done.place s p q).interceptSet.getLsbD i = true ↔
      done.interceptSet.getLsbD i = true ∨ q.1 = i ∧ s.choose p q.2 = .intercept) ∧
    ∀ t, inGroup (done.place s p q).groups t i ↔
      inGroup done.groups t i ∨ q.1 = i ∧ ∃ t', s.choose p q.2 = .target t' ∧ s.normalTarget t' = t := by
  unfold Routed.place
  cases choice : s.choose p q.2 with
  | isLocal => simp [BitVec.getLsbD_or, onePosition_getLsbD _ h]
  | intercept => simp [BitVec.getLsbD_or, onePosition_getLsbD _ h]
  | target t => 
    simp [inGroup_addToGroup, onePosition_getLsbD _ h, and_comm]

theorem Routed.placeAll_spec (l : List (Nat × Dest)) (done : Routed) {i : Nat} (h : i < 8) :
    ((l.foldl (Routed.place s p) done).localSet.getLsbD i = true ↔
      done.localSet.getLsbD i = true ∨ ∃ d, (i, d) ∈ l ∧ s.choose p d = .isLocal) ∧
    ((l.foldl (Routed.place s p) done).interceptSet.getLsbD i = true ↔
      done.interceptSet.getLsbD i = true ∨ ∃ d, (i, d) ∈ l ∧ s.choose p d = .intercept) ∧
    ∀ t, inGroup (l.foldl (Routed.place s p) done).groups t i ↔
      inGroup done.groups t i ∨ ∃ d, (i, d) ∈ l ∧ ∃ t', s.choose p d = .target t' ∧ s.normalTarget t' = t := by
  induction l generalizing done with
  | nil => simp
  | cons q l ih =>
    obtain ⟨localSet, interceptSet, groups⟩ := Routed.place_spec s p done q h
    obtain ⟨localSets, interceptSets, allGroups⟩ := ih (done.place s p q)
    rw [List.foldl_cons]
    refine ⟨?_, ?_, fun t => ?_⟩
    · rw [localSets, localSet, or_assoc]
      exact or_congr_right (numberedAt_cons q l i (s.choose p · = .isLocal))
    · rw [interceptSets, interceptSet, or_assoc]
      exact or_congr_right (numberedAt_cons q l i (s.choose p · = .intercept))
    · rw [allGroups, groups, or_assoc]
      exact or_congr_right (numberedAt_cons q l i fun d => ∃ t', s.choose p d = .target t' ∧ s.normalTarget t' = t)

theorem Routed.nodup_placeAll (l : List (Nat × Dest)) {done : Routed} (apart : (done.groups.map Prod.fst).Nodup) :
    ((l.foldl (Routed.place s p) done).groups.map Prod.fst).Nodup := by
  induction l generalizing done with
  | nil => exact apart
  | cons q l ih =>
    refine ih ?_
    unfold Routed.place
    cases s.choose p q.2 with
    | isLocal => exact apart
    | intercept => exact apart
    | target t => exact nodup_addToGroup _ _ apart

end Placing

/-- The one position numbered i in the list. -/
theorem numberedAt_iff {l : List Dest} {i : Nat} {d : Dest} (h : l[i]? = some d) (placed : Dest → Prop) :
    (∃ d', (i, d') ∈ numbered 0 l ∧ placed d') ↔ placed d := by
  constructor
  · rintro ⟨d', mem, hp⟩
    have at' := ((mem_numbered 0 l i d').mp mem).2
    rw [Nat.sub_zero, h, Option.some.injEq] at at'
    rwa [at']
  · exact fun hp => ⟨d, (mem_numbered 0 l i d).mpr ⟨i.zero_le, h⟩, hp⟩

/-- A routing event places every position once (R86, R87). -/
theorem State.routeMessage_places (s : State) (m : Message) :
    ((s.routeMessage m).groups.map Prod.fst).Nodup ∧
    ∀ (i : Fin 8), ∀ d, m.destinations[i.val]? = some d →
      ((s.routeMessage m).localSet.getLsbD i.val = true ↔ s.choose m.rank d = .isLocal) ∧
      ((s.routeMessage m).interceptSet.getLsbD i.val = true ↔ s.choose m.rank d = .intercept) ∧
      ∀ t, inGroup (s.routeMessage m).groups t i.val ↔
        ∃ t', s.choose m.rank d = .target t' ∧ s.normalTarget t' = t := by
  refine ⟨Routed.nodup_placeAll s m.rank _ List.nodup_nil, fun i d atI => ?_⟩
  obtain ⟨localSet, interceptSet, groups⟩ :=
    Routed.placeAll_spec s m.rank (numbered 0 m.destinations) ⟨0, 0, []⟩ i.isLt
  refine ⟨?_, ?_, fun t => ?_⟩
  · rw [State.routeMessage, localSet, numberedAt_iff atI (s.choose m.rank · = .isLocal)]
    simp
  · rw [State.routeMessage, interceptSet, numberedAt_iff atI (s.choose m.rank · = .intercept)]
    simp
  · rw [State.routeMessage, groups,
      numberedAt_iff atI fun d => ∃ t', s.choose m.rank d = .target t' ∧ s.normalTarget t' = t]
    simp [inGroup]

/-! ### The route entry of a code (R78, R79) -/

theorem bitField_eq (w : Word) (lo len : Nat) : bitField w lo len = w.toNat / 2 ^ lo % 2 ^ len := by
  rw [bitField, BitVec.extractLsb'_toNat, Nat.shiftRight_eq_div_pow]

theorem bitSet_iff_bitField (w : Word) (i : Nat) : bitSet w i = true ↔ bitField w i 1 = 1 := by
  rw [bitField_eq, bitSet, BitVec.getLsbD, Nat.testBit_eq_decide_div_mod_eq, decide_eq_true_eq, pow_one]

/-- The alternate of a route entry, which is word 1 where word 0 says that it is present (R78). -/
def alternateOf (w1 : Word) : Target := ⟨Fin.ofNat 32 (bitField w1 0 5), Fin.ofNat 8 (bitField w1 5 3)⟩

/-- The primary of a route entry, in word 0 (R78). -/
def primaryOf (w0 : Word) : Target := ⟨Fin.ofNat 32 (bitField w0 2 5), Fin.ofNat 8 (bitField w0 7 3)⟩

section RouteKinds

variable {w0 w1 : Word}

theorem routeOf_local (kind : bitField w0 0 2 = 1) : routeOf w0 w1 = .isLocal := by
  simp only [routeOf, kind]

theorem routeOf_unassigned (kind : bitField w0 0 2 = 0 ∨ bitField w0 0 2 = 3) : routeOf w0 w1 = .unassigned := by
  rcases kind with kind | kind <;> simp only [routeOf, kind]

theorem routeOf_circuit (kind : bitField w0 0 2 = 2) :
    routeOf w0 w1 = .circuit (primaryOf w0) (if bitSet w0 15 then some (alternateOf w1) else none)
      (if bitSet w0 15 then bitField w1 8 8 else 0) := by
  rw [routeOf, kind]
  rfl

end RouteKinds

/-- The choice for a code of a CIRCUIT entry is the one between its targets (R86). -/
theorem State.choose_circuit {s : State} {code : Code} {pt : Target} {alternate : Option Target} {threshold : Nat}
    (p : Precedence) (entry : s.route code = .circuit pt alternate threshold) :
    s.choose p (.code code) = s.chooseTarget p pt alternate threshold := by
  rw [State.choose, entry]

end Sys2Proof.Machine
open Sys2Proof Sys2Proof.Machine

/-- Settles O38: the fold over the positions, and the route entry read by its fields. -/
theorem everyPositionIsPlacedOnce : Obligations.EveryPositionIsPlacedOnce := by
  refine ⟨fun s m _ => ?_, fun s p code _ _ => ?_⟩
  · obtain ⟨apart, placed⟩ := s.routeMessage_places m
    refine ⟨apart, fun i d atI => ?_⟩
    obtain ⟨localSet, interceptSet, groups⟩ := placed i d atI
    refine ⟨localSet, interceptSet, fun t chosen => ?_, fun g mem => ?_⟩
    · exact (groups (s.normalTarget t)).mpr ⟨t, chosen, rfl⟩
    · rw [← inGroup_of_nodup apart mem, groups]
  · intro entry field target
    have reads : ∀ w low width, field w low width = bitField (s.shadowAt (entry + w)) low width :=
      fun w low width => (bitField_eq _ low width).symm
    have primary : target 0 2 7 = primaryOf (s.shadowAt (entry + 0)) := by simp only [target, reads, primaryOf]
    have alternate : target 1 0 5 = alternateOf (s.shadowAt (entry + 1)) := by simp only [target, reads, alternateOf]
    have route : s.route code = routeOf (s.shadowAt (entry + 0)) (s.shadowAt (entry + 1)) := rfl
    refine ⟨rfl, fun kind => ?_, fun kind => ?_, fun kind present => ?_, fun kind absent threshold => ?_⟩
    · rw [reads] at kind
      rw [State.choose, route, routeOf_local kind]
    · rw [reads] at kind
      rw [State.choose, route, routeOf_unassigned kind]
    · rw [reads] at kind present
      rw [State.choose_circuit p (route.trans (routeOf_circuit kind)), if_pos ((bitSet_iff_bitField _ _).mpr present),
        if_pos ((bitSet_iff_bitField _ _).mpr present), reads, primary, alternate]
    · rw [reads] at kind absent
      have unset : ¬ bitSet (s.shadowAt (entry + 0)) 15 = true := by rw [bitSet_iff_bitField]; omega
      rw [State.choose_circuit p (route.trans (routeOf_circuit kind)), if_neg unset,
        State.chooseTarget_absent (by simp), State.chooseTarget_absent (by simp), primary]
end

section
/-! PROOF. Deliveries made in the EMPTY slots of a record, and the result of routing taken in one event
(R47, R50, R87, R97). -/

namespace Sys2Proof.Machine

/-! ### Slots and queues -/

/-- The first slot with a property is the lowest one that has it. -/
theorem allSlots_find? {p : SlotIdx → Bool} {k : SlotIdx} :
    allSlots.find? p = some k ↔ p k = true ∧ ∀ j < k, p j = false := by
  rw [allSlots, ← Fin.find?_eq_find?_finRange, Fin.find?_eq_some_iff]

theorem Message.lowestEmpty_iff {m : Message} {k : SlotIdx} :
    m.lowestEmpty = some k ↔ m.slots[k] = none ∧ ∀ j < k, m.slots[j] ≠ none := by
  rw [Message.lowestEmpty, allSlots_find?]
  simp [Option.isSome_iff_ne_none]

theorem Queues.get_put (q : Queues) (p p' : Precedence) (x : Queue) :
    (q.put p x).get p' = if p' = p then x else q.get p' := by
  cases p <;> cases p' <;> rfl

/-! ### A delivery made (R47, R87, R92) -/

/-- The delivery of a group as it is made. -/
def newDelivery (group : Target × PositionSet) : Delivery :=
  { state := .queued, circuit := group.1.circuit, station := group.1.station
    codes := group.2, attempts := 0, saved := none }

/-- The circuit with one more entry at the tail of queue p. -/
def CircuitState.joined (x : CircuitState) (p : Precedence) (e : QueueEntry) : CircuitState :=
  { x with queues := x.queues.put p ((x.queues.get p).joinTail e) }

theorem makeDelivery_eq {s : State} {r : RecordIdx} {k : SlotIdx} (group : Target × PositionSet)
    (lowest : (s.message r).lowestEmpty = some k) :
    makeDelivery r s group = (s.setMessage r ((s.message r).placed k (newDelivery group))).setCircuit group.1.circuit
      ((s.circuit group.1.circuit).joined (s.message r).rank ⟨r, k, sentLength (s.message r) group.2⟩) := by
  simp [makeDelivery, lowest, newDelivery, Message.placed, CircuitState.joined, Message.rank, sentLength]

theorem makeDelivery_spec {s : State} {r : RecordIdx} {k : SlotIdx} (group : Target × PositionSet)
    (lowest : (s.message r).lowestEmpty = some k) :
    s.onlyPair (makeDelivery r s group) group.1.circuit r [] ∧
    (makeDelivery r s group).circuit group.1.circuit =
      (s.circuit group.1.circuit).joined (s.message r).rank ⟨r, k, sentLength (s.message r) group.2⟩ ∧
    (makeDelivery r s group).message r = (s.message r).placed k (newDelivery group) := by
  rw [makeDelivery_eq group lowest]
  exact ⟨((s.onlyPair_refl _ r).setRecord (m := (s.message r).placed k (newDelivery group)) rfl).set _, by simp, by simp⟩

/-! ### The deliveries of a routing event (R87) -/

/-- The step from s to t changes the slots of record r and the queues only, whatever else of the records it keeps. -/
abbrev State.requeued (s t : State) (r : RecordIdx) : Prop :=
  t = { s with
    circuits := t.circuits, circuitDirty := t.circuitDirty
    messages := t.messages, messageDirty := t.messageDirty } ∧
  (∀ r' : RecordIdx, r' ≠ r → t.message r' = s.message r') ∧
  t.message r = { s.message r with slots := (t.message r).slots } ∧
  ∀ c, t.circuit c = { s.circuit c with queues := (t.circuit c).queues }

section Requeued

variable {s t u : State} {r : RecordIdx}

theorem State.requeued_refl (s : State) (r : RecordIdx) : s.requeued s r := ⟨rfl, fun _ _ => rfl, rfl, fun _ => rfl⟩

theorem State.requeued_trans (h : s.requeued t r) (h' : t.requeued u r) : s.requeued u r := by
  obtain ⟨form, others, record, circuits⟩ := h
  obtain ⟨form', others', record', circuits'⟩ := h'
  refine ⟨?_, fun r' hr => (others' r' hr).trans (others r' hr), ?_, fun c => ?_⟩
  · clear others record circuits others' record' circuits'
    rw [State.eq_iff] at form form' ⊢
    simp_all
  · rw [record', record]
  · rw [circuits', circuits]

theorem State.requeued_of_onlyPair {c : Circuit} (h : s.onlyPair t c r [])
    (record : t.message r = { s.message r with slots := (t.message r).slots })
    (circuit : t.circuit c = { s.circuit c with queues := (t.circuit c).queues }) : s.requeued t r := by
  obtain ⟨form, others, records⟩ := h
  refine ⟨form, records, record, fun d => ?_⟩
  by_cases e : d = c
  · rw [e]
    exact circuit
  · rw [(others d e).1]

end Requeued

/-- The entries that the groups, made in the slots from n on, bring to the queue of circuit c. -/
def joinedEntries (r : RecordIdx) (m : Message) (groups : List (Target × PositionSet)) (n : Nat) (c : Circuit) :
    List QueueEntry :=
  ((groups.zipIdx n).filter fun g => decide (g.1.1.circuit = c)).map fun g =>
    ⟨r, Fin.ofNat 8 g.2, sentLength m g.1.2⟩

theorem joinedEntries_cons (r : RecordIdx) (m : Message) (g : Target × PositionSet) (groups : List (Target × PositionSet))
    (n : Nat) (c : Circuit) : joinedEntries r m (g :: groups) n c =
      (if g.1.circuit = c then [⟨r, Fin.ofNat 8 n, sentLength m g.2⟩] else []) ++ joinedEntries r m groups (n + 1) c := by
  simp only [joinedEntries, List.zipIdx_cons, List.filter_cons]
  by_cases h : g.1.circuit = c <;> simp [h]

/-- A queue with entries joined at its tail. -/
def Queue.joinAll (q : Queue) (es : List QueueEntry) : Queue :=
  { entries := q.entries ++ es, count := q.count + (es.map QueueEntry.sentLength).sum }

theorem Queue.joinAll_nil (q : Queue) : q.joinAll [] = q := by simp [Queue.joinAll]

theorem Queue.joinAll_append (q : Queue) (es es' : List QueueEntry) :
    q.joinAll (es ++ es') = (q.joinAll es).joinAll es' := by
  simp [Queue.joinAll, Nat.add_assoc]

/-- The slots of a record with the groups made in those from n on. -/
def Message.filled (m : Message) (groups : List (Target × PositionSet)) (n : Nat) : Message :=
  { m with slots := Vector.ofFn fun k : SlotIdx =>
      if k.val < n then m.slots[k] else (groups[k.val - n]?).map newDelivery }

theorem Message.filled_getElem (m : Message) (groups : List (Target × PositionSet)) (n : Nat) (k : SlotIdx) :
    (m.filled groups n).slots[k] = if k.val < n then m.slots[k] else (groups[k.val - n]?).map newDelivery := by
  simp [Message.filled]

theorem Message.eq_of_slots {m m' : Message} (other : m = { m' with slots := m.slots })
    (slots : ∀ k : SlotIdx, m.slots[k] = m'.slots[k]) : m = m' := by
  rw [other, Vector.ext fun i h => slots ⟨i, h⟩]

theorem Message.filled_nil {m : Message} {n : Nat} (empty : ∀ k : SlotIdx, m.slots[k] = none ↔ n ≤ k.val) :
    m.filled [] n = m := by
  refine Message.eq_of_slots rfl fun k => ?_
  rw [Message.filled_getElem]
  split
  · rfl
  · exact ((empty k).mpr (by omega)).symm

theorem Message.placed_getElem (m : Message) (k : SlotIdx) (d : Delivery) (j : SlotIdx) :
    (m.placed k d).slots[j] = if j = k then some d else m.slots[j] := by
  simp only [Message.placed, Fin.getElem_fin, Vector.getElem_set, Fin.ext_iff, eq_comm]

/-- One group made in slot n, and the others after it. -/
theorem Message.filled_cons (m : Message) (g : Target × PositionSet) (groups : List (Target × PositionSet)) (k : SlotIdx) :
    (m.placed k (newDelivery g)).filled groups (k.val + 1) = m.filled (g :: groups) k.val := by
  refine Message.eq_of_slots rfl fun j => ?_
  rw [Message.filled_getElem, Message.filled_getElem, Message.placed_getElem]
  rcases lt_trichotomy j k with less | rfl | more
  · rw [if_pos (Nat.lt_succ_of_lt less), if_neg (Fin.ne_of_lt less), if_pos (Fin.lt_def.mp less)]
  · simp
  · have further : j.val - k.val = (j.val - (k.val + 1)) + 1 := by
      rw [Fin.lt_def] at more
      omega
    rw [if_neg (Nat.not_lt.mpr more), if_neg (Nat.lt_asymm more), further,
      List.getElem?_cons_succ]

/-- Groups made one after the other, in a record whose first n slots are taken (R87). -/
theorem makeDeliveries_spec (r : RecordIdx) (groups : List (Target × PositionSet)) (n : Nat) (room : n + groups.length ≤ 8)
    (s : State) (empty : ∀ k : SlotIdx, (s.message r).slots[k] = none ↔ n ≤ k.val) :
    s.requeued (groups.foldl (makeDelivery r) s) r ∧
    (groups.foldl (makeDelivery r) s).message r = (s.message r).filled groups n ∧
    ∀ c p, (groups.foldl (makeDelivery r) s).queue c p = (s.queue c p).joinAll
      (if p = (s.message r).rank then joinedEntries r (s.message r) groups n c else []) := by
  induction groups generalizing n s with
  | nil =>
    refine ⟨s.requeued_refl r, ?_, fun c p => ?_⟩
    · exact (Message.filled_nil empty).symm
    · simp [joinedEntries, Queue.joinAll_nil]
  | cons g groups ih =>
    rw [List.length_cons] at room
    obtain ⟨slot, rfl⟩ : ∃ slot : SlotIdx, n = slot.val := ⟨⟨n, by omega⟩, rfl⟩
    have lowest : (s.message r).lowestEmpty = some slot :=
      Message.lowestEmpty_iff.mpr ⟨(empty _).mpr le_rfl, fun j hj => by rw [ne_eq, empty]; exact Nat.not_le.mpr hj⟩
    obtain ⟨pair, circuit, record⟩ := makeDelivery_spec g lowest
    rw [List.foldl_cons]
    obtain ⟨u, hu⟩ : ∃ u, u = makeDelivery r s g := ⟨_, rfl⟩
    rw [← hu] at pair circuit record ⊢
    have emptied : ∀ k : SlotIdx, (u.message r).slots[k] = none ↔ slot.val + 1 ≤ k.val := fun k => by
      rw [record, Message.placed_getElem]
      by_cases e : k = slot
      · simp [e]
      · rw [if_neg e, empty]
        have : k.val ≠ slot.val := fun h => e (Fin.ext h)
        omega
    obtain ⟨rest, records, queues⟩ := ih (slot.val + 1) (by omega) u emptied
    refine ⟨State.requeued_trans (State.requeued_of_onlyPair pair (by rw [record]; rfl) (by rw [circuit]; rfl)) rest,
      ?_, fun c p => ?_⟩
    · rw [records, record, Message.filled_cons]
    · have first : u.queue c p = (s.queue c p).joinAll (if p = (s.message r).rank ∧ g.1.circuit = c then
          [⟨r, slot, sentLength (s.message r) g.2⟩] else []) := by
        by_cases e : g.1.circuit = c
        · subst e
          rw [State.queue, circuit]
          exact (Queues.get_put _ _ _ _).trans (by split <;> simp [*, Queue.joinAll, Queue.joinTail, State.queue])
        · rw [State.queue, (pair.2.1 c (Ne.symm e)).1, if_neg (fun h => e h.2), Queue.joinAll_nil, State.queue]
      have slots : joinedEntries r (u.message r) groups (slot.val + 1) c =
        joinedEntries r (s.message r) groups (slot.val + 1) c := by rw [record]; rfl
      have rank : (u.message r).rank = (s.message r).rank := by rw [record]; rfl
      rw [queues, first, slots, rank, ← Queue.joinAll_append, joinedEntries_cons]
      by_cases own : p = (s.message r).rank <;> simp [own]

/-- The record as routing leaves it, before its deliveries are made (R50). -/
def Message.routedAs (m : Message) (result : Routed) (minute : BitVec 16) : Message :=
  { m with
    localSet := result.localSet, interceptSet := result.interceptSet
    flags := { m.flags with isLocal := decide (result.localSet ≠ 0) }
    receiptMinute := some minute, state := if result.groups.isEmpty then .done else .routed }

/-- The state with the result of routing written and its deliveries made (R50, R87). -/
def State.withDeliveries (s : State) (r : RecordIdx) : State :=
  (s.routeMessage (s.message r)).groups.foldl (makeDelivery r)
    (s.setMessage r ((s.message r).routedAs (s.routeMessage (s.message r)) s.minute))

/-- A report after a change of circuits and records only. -/
theorem State.raise_of_kept {s v : State} (kept : v = { s with
    circuits := v.circuits, circuitDirty := v.circuitDirty, messages := v.messages
    messageDirty := v.messageDirty, officeDirty := v.officeDirty }) (p : Place) (g : Word) (k : ReportKind) :
    v.raise p g k = { s with
      messages := (v.raise p g k).messages, messageDirty := (v.raise p g k).messageDirty
      circuits := (v.raise p g k).circuits, circuitDirty := (v.raise p g k).circuitDirty
      officeDirty := (v.raise p g k).officeDirty, reports := (s.raise p g k).reports } := by
  have reports : (v.raise p g k).reports = (s.raise p g k).reports := by
    rw [State.raise_reports_eq, State.raise_reports_eq, kept]
  rw [State.eq_iff] at kept ⊢
  simp_all

theorem routeRecord_eq (r : RecordIdx) (place : Place) (report : Message → ReportKind) (s : State) :
    routeRecord r place report s = settle r ((s.routeMessage (s.message r)).groups.foldl (fun v g => judge g.1.circuit v)
      ((s.withDeliveries r).raise place ((s.withDeliveries r).tag r) (report ((s.withDeliveries r).message r)))) := rfl

end Sys2Proof.Machine
open Sys2Proof Sys2Proof.Machine

/-- Settles O39: the record written, the groups made one after the other, and the report. -/
theorem routingEventTakesTheWholeResult : Obligations.RoutingEventTakesTheWholeResult := by
  unfold Obligations.RoutingEventTakesTheWholeResult
  intro r place report s empty few m result entry
  obtain ⟨w, hw⟩ : ∃ w, w = s.setMessage r (m.routedAs result s.minute) := ⟨_, rfl⟩
  have written : w.message r = m.routedAs result s.minute := by rw [hw, State.message_setMessage_self]
  obtain ⟨requeued, record, queues⟩ := makeDeliveries_spec r result.groups 0 (by rw [Nat.zero_add]; exact few) w
    fun k => iff_of_true (by rw [written]; exact empty k) k.val.zero_le
  obtain ⟨v, hv⟩ : ∃ v, v = s.withDeliveries r := ⟨_, rfl⟩
  have made : result.groups.foldl (makeDelivery r) w = v := by rw [hv, hw]; rfl
  rw [made] at requeued record queues
  obtain ⟨form, others, -, circuits⟩ := requeued
  rw [written] at record
  have tag : v.tag r = s.tag r := by rw [State.tag, record]; rfl
  refine ⟨v.raise place (v.tag r) (report (v.message r)), by rw [hv]; exact routeRecord_eq r place report s, ?_,
    fun r' hr => ?_, ?_, fun c => ⟨?_, fun p => ?_⟩⟩
  · have kept : v = { s with
        circuits := v.circuits, circuitDirty := v.circuitDirty, messages := v.messages
        messageDirty := v.messageDirty, officeDirty := v.officeDirty } := by
      rw [form, hw, State.eq_iff]
      simp
    rw [tag, State.message_raise]
    exact State.raise_of_kept kept _ _ _
  · rw [State.message_raise, others r' hr, hw, State.message_setMessage_ne _ _ hr]
  · rw [State.message_raise, record]
    have state : (if result.groups.isEmpty = true then RecordState.done else .routed) =
        if result.groups = [] then .done else .routed := by simp only [List.isEmpty_iff]
    simp only [Message.filled, Message.routedAs, state, Nat.not_lt_zero, if_false, Nat.sub_zero]
    rfl
  · rw [State.circuit_raise, circuits c, hw]
    rfl
  · intro joined
    have joins : (v.raise place (v.tag r) (report (v.message r))).queue c p = (s.queue c p).joinAll joined := by
      have before : w.queue c p = s.queue c p := by rw [hw]; rfl
      rw [State.queue, State.circuit_raise, ← State.queue, queues, before, written]
      rfl
    rw [joins]
    exact ⟨rfl, rfl⟩
end
section
/-! PROOF. DIVERT_STEP: the delivery taken, each of its codes on its other route, joined or anew, or in intercept, and
the end of the divert (R90 to R94). -/

namespace Sys2Proof.Machine

/-! ### The other route of a code (R91) -/

theorem State.otherTarget_congr {s t : State} (shadow : t.shadow = s.shadow)
    (control : ∀ c, (t.circuit c).control = (s.circuit c).control) (c : Circuit) (d : Dest) :
    t.otherTarget c d = s.otherTarget c d := by
  have route : ∀ code, t.route code = s.route code := fun code => by
    simp only [State.route, State.shadowAt, shadow]
  have diverting : t.isDiverting = s.isDiverting := funext fun c' => by simp only [State.isDiverting, control]
  have normal : t.normalTarget = s.normalTarget := funext fun t' => by
    simp [State.normalTarget, State.isParty, control]
  cases d with
  | badCode => rfl
  | code code => simp only [State.otherTarget, route, diverting, normal]

/-- The other route's circuit does not divert (R91). -/
theorem State.otherTarget_open {s : State} {c : Circuit} {d : Dest} {t : Target} (h : s.otherTarget c d = some t) :
    s.isDiverting t.circuit = false := by
  cases d with
  | badCode => cases h
  | code code =>
    obtain ⟨t', kept, rfl⟩ := Option.map_eq_some_iff.mp h
    have shut := (Option.filter_eq_some_iff.mp kept).2
    have same : (s.normalTarget t').circuit = t'.circuit := by unfold State.normalTarget; split <;> rfl
    rw [same]
    simpa using shut

/-- A target of the route entry as the other route: none where its circuit diverts (R80, R91). -/
def State.otherRoute (s : State) (t : Target) : Option Target :=
  if s.isDiverting t.circuit then none else some (s.normalTarget t)

theorem State.otherTarget_none {s : State} {code : Code} (c : Circuit)
    (h : s.route code = .unassigned ∨ s.route code = .isLocal) : s.otherTarget c (.code code) = none := by
  rcases h with h | h <;> simp [State.otherTarget, h]

theorem State.otherTarget_circuit {s : State} {code : Code} {c : Circuit} {primary : Target} {alternate : Option Target}
    {threshold : Nat} (h : s.route code = .circuit primary alternate threshold) :
    s.otherTarget c (.code code) =
      (if primary.circuit = c then alternate.filter fun t => decide (t.circuit ≠ c) else some primary).bind
        s.otherRoute := by
  have placed : ∀ t : Option Target,
      (t.filter fun t => !s.isDiverting t.circuit).map s.normalTarget = t.bind s.otherRoute := fun t => by
    cases t with
    | none => rfl
    | some t => cases hd : s.isDiverting t.circuit <;> simp [Option.filter, State.otherRoute, hd]
  simp only [State.otherTarget, h, placed]

/-! ### The end of a divert (R94) -/

theorem divertEnd_waits {s : State} {c : Circuit}
    (h : s.isDiverting c = false ∨ ∃ p, (s.queue c p).entries ≠ []) : divertEnd c s = s := by
  refine if_neg ?_
  rw [Bool.and_eq_true, Queues.isEmpty_iff]
  rintro ⟨diverting, empty⟩
  rcases h with h | ⟨p, h⟩
  · rw [h] at diverting
    cases diverting
  · exact h (empty p)

/-- The state with the diverting mark cleared and DIVERT_DONE handed over (R94). -/
def State.divertDone (s : State) (c : Circuit) : State :=
  (s.updControl c fun k => { k with diverting := false }).raise (.circuit c none) 0
    (.divertDone (s.circuit c).divert.taken (s.circuit c).divert.intercepted)

theorem divertEnd_ends {s : State} {c : Circuit} (diverting : s.isDiverting c = true)
    (empty : ∀ p, (s.queue c p).entries = []) : divertEnd c s = judge c (s.divertDone c) :=
  if_pos (by rw [Bool.and_eq_true, Queues.isEmpty_iff]; exact ⟨diverting, empty⟩)

/-! ### One code placed (R91, R92) -/

/-- A QUEUED delivery in slot k is one for the target (R80, R92). -/
def State.joinable (s : State) (r : RecordIdx) (t : Target) (k : SlotIdx) : Prop :=
  ∃ d, s.delivery r k = some d ∧ d.state = .queued ∧ d.circuit = t.circuit ∧
    (s.isParty t.circuit = true → d.station = t.station)

theorem State.joinable_iff {s : State} {r : RecordIdx} {t : Target} {k : SlotIdx} :
    s.joinable r t k ↔ (s.delivery r k).any (fun d => d.state = .queued && d.circuit = t.circuit &&
      (!s.isParty t.circuit || d.station = t.station)) = true := by
  simp only [State.joinable, Option.any_eq_true, Bool.and_eq_true, decide_eq_true_eq, Bool.or_eq_true,
    Bool.not_eq_true', and_assoc]
  refine exists_congr fun d => and_congr_right fun _ => and_congr_right fun _ => and_congr_right fun _ => ?_
  cases s.isParty t.circuit <;> simp

theorem State.queuedFor_eq (s : State) (r : RecordIdx) (t : Target) : s.queuedFor r t = allSlots.find? fun k =>
    (s.delivery r k).any fun d => d.state = .queued && d.circuit = t.circuit &&
      (!s.isParty t.circuit || d.station = t.station) := by
  refine congrArg (allSlots.find? ·) (funext fun k => ?_)
  cases s.delivery r k <;> rfl

theorem State.queuedFor_eq_some {s : State} {r : RecordIdx} {t : Target} {k : SlotIdx} :
    s.queuedFor r t = some k ↔ s.joinable r t k ∧ ∀ j < k, ¬ s.joinable r t j := by
  simp only [State.queuedFor_eq, allSlots_find?, State.joinable_iff, Bool.not_eq_true]

theorem State.queuedFor_eq_none {s : State} {r : RecordIdx} {t : Target} :
    s.queuedFor r t = none ↔ ∀ j, ¬ s.joinable r t j := by
  simp only [State.queuedFor_eq, List.find?_eq_none, State.joinable_iff, allSlots, List.mem_finRange, true_implies]

section Code

variable {c : Circuit} {r : RecordIdx} {i : Nat} {s : State}

/-- A code with no other route goes to intercept (R91). -/
theorem divertCode_intercepts (route : (s.message r).destinations[i]?.bind (s.otherTarget c) = none) :
    s.onlyPair (divertCode c r s i) c r [] ∧
    (divertCode c r s i).circuit c = { s.circuit c with
      divert := { (s.circuit c).divert with intercepted := (s.circuit c).divert.intercepted + 1 } } ∧
    (divertCode c r s i).message r =
      { s.message r with interceptSet := (s.message r).interceptSet ||| onePosition i } := by
  have form : divertCode c r s i = (s.setMessage r
      { s.message r with interceptSet := (s.message r).interceptSet ||| onePosition i }).setCircuit c
      { s.circuit c with divert := { (s.circuit c).divert with intercepted := (s.circuit c).divert.intercepted + 1 } } := by
    simp only [divertCode, route]
    rfl
  rw [form]
  refine ⟨((s.onlyPair_refl c r).setRecord ?_).set _, by simp, by simp⟩
  rfl

/-- A queue whose entry for a delivery is longer by the 3 characters of one code (R92). -/
theorem Queue.lengthen_eq (q : Queue) (r : RecordIdx) (k : SlotIdx) (n : Nat) : q.lengthen r k n =
    { entries := q.entries.map fun e =>
        if e.record = r ∧ e.slot = k then { e with sentLength := e.sentLength + n } else e
      count := q.count + n } := by
  simp [Queue.lengthen, QueueEntry.names]

/-- A code whose other target has a QUEUED delivery of the message joins it (R92). -/
theorem divertCode_joins {t : Target} {k : SlotIdx} {d : Delivery}
    (route : (s.message r).destinations[i]?.bind (s.otherTarget c) = some t) (joins : s.queuedFor r t = some k)
    (at' : s.delivery r k = some d) (own : d.circuit = t.circuit) :
    s.onlyPair (divertCode c r s i) t.circuit r [] ∧
    (divertCode c r s i).circuit t.circuit = { s.circuit t.circuit with
      queues := (s.circuit t.circuit).queues.put (s.message r).rank
        ((s.queue t.circuit (s.message r).rank).lengthen r k 3) } ∧
    (divertCode c r s i).message r = (s.message r).placed k { d with codes := d.codes ||| onePosition i } := by
  have form : divertCode c r s i = (s.setMessage r
      ((s.message r).placed k { d with codes := d.codes ||| onePosition i })).setCircuit t.circuit
      { s.circuit t.circuit with
        queues := (s.circuit t.circuit).queues.put (s.message r).rank
          ((s.queue t.circuit (s.message r).rank).lengthen r k 3) } := by
    rw [← own]
    simp [divertCode, route, joins, mergeCode, at', Message.placed, Message.rank, State.queue]
  rw [form]
  exact ⟨((s.onlyPair_refl _ r).setRecord (m := (s.message r).placed k _) rfl).set _, by simp, by simp⟩

/-- A code with another route and no delivery to join is made anew (R92). -/
theorem divertCode_makes {t : Target} (route : (s.message r).destinations[i]?.bind (s.otherTarget c) = some t)
    (alone : s.queuedFor r t = none) : divertCode c r s i = makeDelivery r s (t, onePosition i) := by
  simp only [divertCode, route, alone]

/-- Whichever way a code goes, one circuit and the record change, and the record keeps its generation (R91, R92). -/
theorem divertCode_changes (c : Circuit) (r : RecordIdx) (s : State) (i : Nat) :
    ∃ c', s.onlyPair (divertCode c r s i) c' r [] ∧
      ((divertCode c r s i).message r).generation = (s.message r).generation := by
  cases route : (s.message r).destinations[i]?.bind (s.otherTarget c) with
  | none =>
    obtain ⟨pair, -, record⟩ := divertCode_intercepts route
    exact ⟨c, pair, by rw [record]⟩
  | some t =>
    cases joins : s.queuedFor r t with
    | some k =>
      obtain ⟨d, at', -, own, -⟩ := (State.queuedFor_eq_some.mp joins).1
      obtain ⟨pair, -, record⟩ := divertCode_joins route joins at' own
      exact ⟨t.circuit, pair, by rw [record]; rfl⟩
    | none =>
      rw [divertCode_makes route joins]
      cases lowest : (s.message r).lowestEmpty with
      | none =>
        have full : makeDelivery r s (t, onePosition i) = s := by simp only [makeDelivery, lowest]
        rw [full]
        exact ⟨c, s.onlyPair_refl c r, rfl⟩
      | some k =>
        obtain ⟨pair, -, record⟩ := makeDelivery_spec (t, onePosition i) lowest
        exact ⟨t.circuit, pair, by rw [record]; rfl⟩

end Code

theorem divertCodes_tag (c : Circuit) (r : RecordIdx) (l : List Nat) (s : State) :
    (l.foldl (divertCode c r) s).tag r = s.tag r := by
  induction l generalizing s with
  | nil => rfl
  | cons i l ih =>
    obtain ⟨-, -, generation⟩ := divertCode_changes c r s i
    rw [List.foldl_cons, ih, State.tag, generation, State.tag]

theorem codeCount_onePosition (i : Fin 8) : codeCount (onePosition i.val) = 1 := by
  revert i
  decide

theorem positionsOf_onePosition (i : Fin 8) : positionsOf (onePosition i.val) = [i.val] := by
  revert i
  decide

theorem positionsOf_eq (codes : PositionSet) :
    positionsOf codes = (List.range 8).filter fun i => codes.getLsbD i := by
  rw [← List.map_coe_finRange_eq_range, List.filter_map]
  rfl

/-! ### The delivery taken (R90) -/

section Take

variable {c : Circuit} {p : Precedence} {e : QueueEntry} {rest : List QueueEntry} {d : Delivery} {s : State}

/-- The state with the delivery of the queue's head taken: out of its queue, its slot EMPTY, the count raised. -/
def State.divertTaken (s : State) (c : Circuit) (e : QueueEntry) : State :=
  ((s.updQueue c (s.message e.record).rank fun q => q.leave e.record e.slot).updSlot e.record e.slot
    fun _ => none).updCircuit c fun x => { x with divert := { x.divert with taken := x.divert.taken + 1 } }

theorem State.divertTaken_spec (head : (s.queue c p).entries = e :: rest) (rank : (s.message e.record).rank = p)
    (alone : ∀ e' ∈ rest, e'.names e.record e.slot = false) :
    s.onlyPair (s.divertTaken c e) c e.record [] ∧
    (s.divertTaken c e).circuit c = { s.circuit c with
      queues := (s.circuit c).queues.put p { entries := rest, count := (s.queue c p).count - e.sentLength }
      divert := { (s.circuit c).divert with taken := (s.circuit c).divert.taken + 1 } } ∧
    (s.divertTaken c e).message e.record =
      { s.message e.record with slots := (s.message e.record).slots.set e.slot none } := by
  have left : ((s.circuit c).queues.get p).leave e.record e.slot =
      { entries := rest, count := (s.queue c p).count - e.sentLength } := Queue.leave_head head alone
  subst rank
  refine ⟨?_, by simp [State.divertTaken, left], by simp [State.divertTaken]⟩
  refine (((s.onlyPair_refl c e.record).set _).setRecord ?_).set _
  rfl

/-- The codes of the taken delivery that went to intercept (R93). -/
def goneToIntercept (d : Delivery) (before after : PositionSet) : PositionSet := d.codes &&& after &&& ~~~before

theorem goneToIntercept_new {d : Delivery} {i : Fin 8} {before : PositionSet} (one : d.codes = onePosition i.val)
    (unset : before.getLsbD i.val = false) :
    goneToIntercept d before (before ||| onePosition i.val) = onePosition i.val := by
  refine BitVec.eq_of_getLsbD_eq fun j hj => ?_
  rw [goneToIntercept, one, BitVec.getLsbD_and, BitVec.getLsbD_and, BitVec.getLsbD_or, BitVec.getLsbD_not]
  cases at' : (onePosition i.val).getLsbD j with
  | false => rfl
  | true =>
    obtain rfl := (onePosition_getLsbD i.val hj).mp at'
    rw [unset, Bool.or_true]
    simp

theorem goneToIntercept_same (d : Delivery) (before : PositionSet) : goneToIntercept d before before = 0 := by
  rw [goneToIntercept, BitVec.and_assoc, BitVec.and_not_self]
  exact BitVec.and_zero

theorem onePosition_ne_zero (i : Fin 8) : onePosition i.val ≠ 0 := fun h => by
  have := (onePosition_getLsbD i.val i.isLt).mpr rfl
  rw [h] at this
  simp at this

theorem State.queuedCircuits_raise (s : State) (r : RecordIdx) (p : Place) (g : Word) (k : ReportKind) :
    (s.raise p g k).queuedCircuits r = s.queuedCircuits r := by
  simp [State.queuedCircuits, State.delivery, State.message_raise]

/-- A divert step with a delivery at the head (R90 to R93). -/
theorem divertStep_takes (diverting : s.isDiverting c = true) (head : (s.queue c p).entries = e :: rest)
    (above : ∀ q ∈ p.andAbove, q ≠ p → (s.queue c q).entries = []) (at' : s.delivery e.record e.slot = some d)
    {v : State} (placed : v = (positionsOf d.codes).foldl (divertCode c e.record) (s.divertTaken c e))
    {gone : PositionSet}
    (hgone : gone = goneToIntercept d (s.message e.record).interceptSet (v.message e.record).interceptSet) :
    divertStep c s = (v.queuedCircuits e.record).foldl (fun w t => judge t w) (divertEnd c (settle e.record
      (if gone = 0 then v else v.raise (.circuit c none) (s.tag e.record) (.codesIntercepted gone)))) := by
  have tag : (s.divertTaken c e).tag e.record = s.tag e.record := by
    simp [State.divertTaken, State.tag]
  have step : divertStep c s = divertTake c e d s := by
    simp only [divertStep, diverting, if_true, State.highestHead_eq_some head above, at']
  subst placed hgone
  rw [step, ← tag, ← divertCodes_tag c e.record (positionsOf d.codes)]
  simp only [divertTake, ne_eq, ite_not]
  rfl

/-- With one code, one placing (R91, R92). -/
theorem divertStep_takesOne {i : Fin 8} (diverting : s.isDiverting c = true) (head : (s.queue c p).entries = e :: rest)
    (above : ∀ q ∈ p.andAbove, q ≠ p → (s.queue c q).entries = []) (at' : s.delivery e.record e.slot = some d)
    (one : d.codes = onePosition i.val) {v : State} (placed : v = divertCode c e.record (s.divertTaken c e) i.val)
    {gone : PositionSet}
    (hgone : gone = goneToIntercept d (s.message e.record).interceptSet (v.message e.record).interceptSet) :
    divertStep c s = (v.queuedCircuits e.record).foldl (fun w t => judge t w) (divertEnd c (settle e.record
      (if gone = 0 then v else v.raise (.circuit c none) (s.tag e.record) (.codesIntercepted gone)))) := by
  refine divertStep_takes diverting head above at' ?_ hgone
  rw [one, positionsOf_onePosition, placed]
  rfl

/-- A change of one circuit and record after a change of another circuit and the same record. -/
theorem State.onlyPair_twice {s t u : State} {c c' : Circuit} {r : RecordIdx} (h : s.onlyPair t c r [])
    (h' : t.onlyPair u c' r []) :
    u = { s with
      circuits := u.circuits, circuitDirty := u.circuitDirty
      messages := u.messages, messageDirty := u.messageDirty } ∧
    (∀ d : Circuit, d ≠ c → d ≠ c' → u.circuit d = s.circuit d) ∧
    ∀ r' : RecordIdx, r' ≠ r → u.message r' = s.message r' := by
  obtain ⟨form, others, records⟩ := h
  obtain ⟨form', others', records'⟩ := h'
  refine ⟨?_, fun d hd hd' => (others' d hd').1.trans (others d hd).1,
    fun r' hr => (records' r' hr).trans (records r' hr)⟩
  clear others records others' records'
  rw [State.eq_iff] at form form' ⊢
  simp_all [State.raiseAll]

/-- The other routes are as they were before the delivery was taken (R91). -/
theorem State.divertTaken_otherTarget (s : State) (c : Circuit) (e : QueueEntry) :
    (s.divertTaken c e).otherTarget c = s.otherTarget c := by
  refine funext fun dest => State.otherTarget_congr (s := s) (t := s.divertTaken c e) rfl (fun c' => ?_) c dest
  by_cases h : c' = c <;> simp [State.divertTaken, h, State.circuit_setCircuit_ne]

theorem State.divertTaken_isParty (s : State) (c : Circuit) (e : QueueEntry) (c' : Circuit) :
    (s.divertTaken c e).isParty c' = s.isParty c' := by
  by_cases h : c' = c <;> simp [State.divertTaken, State.isParty, h, State.circuit_setCircuit_ne]

end Take

end Sys2Proof.Machine
open Sys2Proof Sys2Proof.Machine

/-- Settles O42: the taken delivery, the ways of one code, the other routes, and the divert's end. -/
theorem divertStepPlacesTheTakenCode : Obligations.DivertStepPlacesTheTakenCode := by
  unfold Obligations.DivertStepPlacesTheTakenCode
  refine ⟨?_, ?_, ?_, ?_, ?_, ?_⟩
  · intro c p e rest d i s diverting head above rank at' one alone unset route
    obtain ⟨taken, circuit, record⟩ := State.divertTaken_spec head rank alone
    obtain ⟨v, hv⟩ : ∃ v, v = divertCode c e.record (s.divertTaken c e) i.val := ⟨_, rfl⟩
    obtain ⟨pair, circuit', record'⟩ := divertCode_intercepts (c := c) (r := e.record) (i := i.val)
      (s := s.divertTaken c e) (by rw [State.divertTaken_otherTarget, record]; exact route)
    rw [← hv] at pair circuit' record'
    have gone : goneToIntercept d (s.message e.record).interceptSet (v.message e.record).interceptSet =
        onePosition i.val := by
      rw [record', record]
      exact goneToIntercept_new one unset
    have step := divertStep_takesOne diverting head above at' one hv gone.symm
    rw [if_neg (onePosition_ne_zero i)] at step
    obtain ⟨form, others, records⟩ := (State.onlyPair_trans (l := []) taken pair).report (.circuit c none)
      (s.tag e.record) (.codesIntercepted (onePosition i.val))
    refine ⟨_, ?_, form, others, ?_, records, ?_⟩
    · rw [State.queuedCircuits_raise]
      exact congrArg Host.Outcome.next step
    · rw [State.circuit_raise, circuit', circuit]
    · rw [State.message_raise, record', record]
  · intro c p e rest d i other k s diverting head above rank at' one alone route apart emptied lower
    obtain ⟨taken, circuit, record⟩ := State.divertTaken_spec head rank alone
    obtain ⟨w, hw⟩ : ∃ w, w = s.divertTaken c e := ⟨_, rfl⟩
    have route' : (w.message e.record).destinations[i.val]?.bind (w.otherTarget c) = some other := by
      rw [hw, State.divertTaken_otherTarget, record]
      exact route
    rw [← hw] at taken circuit record
    have elsewhere : other.circuit ≠ c := fun same => by
      obtain ⟨dest, -, reached⟩ := Option.bind_eq_some_iff.mp route
      have shut := State.otherTarget_open reached
      rw [same, diverting] at shut
      cases shut
    have slots : ∀ j : SlotIdx, w.delivery e.record j = if j = e.slot then none else s.delivery e.record j := fun j => by
      rw [State.delivery, record]
      simp only [Fin.getElem_fin, Vector.getElem_set, Fin.ext_iff, eq_comm, State.delivery]
    have none' : w.queuedFor e.record other = none := by
      refine State.queuedFor_eq_none.mpr fun j ⟨d', there, queued, own, _⟩ => ?_
      rw [slots] at there
      split at there
      · cases there
      · next ne => exact apart j ne d' there ⟨queued, own⟩
    have lowest : (w.message e.record).lowestEmpty = some k := by
      refine Message.lowestEmpty_iff.mpr ⟨(slots k).trans ?_, fun j hj => ?_⟩
      · rcases emptied with own | empty
        · exact if_pos own
        · rw [empty, ite_self]
      · obtain ⟨ne, full⟩ := lower j hj
        exact ((slots j).trans (if_neg ne)).trans_ne full
    obtain ⟨pair, circuit', record'⟩ := makeDelivery_spec (other, onePosition i.val) lowest
    rw [← divertCode_makes route' none'] at pair circuit' record'
    obtain ⟨v, hv⟩ : ∃ v, v = divertCode c e.record w i.val := ⟨_, rfl⟩
    rw [← hv] at pair circuit' record'
    have gone : goneToIntercept d (s.message e.record).interceptSet (v.message e.record).interceptSet = 0 := by
      rw [record', record]
      exact goneToIntercept_same d _
    have step := divertStep_takesOne diverting head above at' one (hv.trans (by rw [hw])) gone.symm
    rw [if_pos rfl] at step
    obtain ⟨form, others, records⟩ := State.onlyPair_twice taken pair
    refine ⟨v, congrArg Host.Outcome.next step, ?_⟩
    intro m length queue
    refine ⟨elsewhere, form, others, ?_, ?_, records, ?_⟩
    · rw [(pair.2.1 c (Ne.symm elsewhere)).1, circuit]
    · subst rank
      rw [circuit', (taken.2.1 _ elsewhere).1, record, sentLength, codeCount_onePosition]
      rfl
    · rw [record', record]
      rfl
  · intro c p e rest d s diverting head above rank at' alone
    obtain ⟨pair, circuit, record⟩ := State.divertTaken_spec head rank alone
    refine ⟨s.divertTaken c e, ?_, pair.1, pair.2.1, circuit, pair.2.2, record⟩
    intro v gone told
    exact congrArg Host.Outcome.next (divertStep_takes diverting head above at' (by rw [positionsOf_eq]) rfl)
  · intro c r i s m t other matching
    refine ⟨?_, ?_, fun route => ?_, fun target k d route joins first at' => ?_,
      fun target k small route none empty lower => ?_⟩
    · obtain ⟨_, pair, -⟩ := divertCode_changes c r s i
      exact pair.1
    · obtain ⟨_, pair, -⟩ := divertCode_changes c r s i
      exact pair.2.2
    · obtain ⟨pair, circuit, record⟩ := divertCode_intercepts route
      exact ⟨pair.2.1, circuit, record⟩
    · obtain ⟨d', at'', queued, own, -⟩ := id joins
      obtain rfl : d' = d := Option.some.inj (at''.symm.trans at')
      obtain ⟨pair, circuit, record⟩ := divertCode_joins route (State.queuedFor_eq_some.mpr ⟨joins, first⟩) at' own
      refine ⟨pair.2.1, ?_, record⟩
      rw [circuit, Queue.lengthen_eq]
    · have alone : s.queuedFor r target = Option.none := State.queuedFor_eq_none.mpr none
      obtain ⟨pair, circuit, record⟩ := makeDelivery_spec (target, onePosition i)
        (Message.lowestEmpty_iff.mpr ⟨empty, lower⟩)
      rw [← divertCode_makes route alone] at pair circuit record
      refine ⟨pair.2.1, ?_, record⟩
      rw [circuit, sentLength, codeCount_onePosition ⟨i, small⟩]
      rfl
  · intro c code s placed
    have same : ∀ t, placed t = s.otherRoute t := fun t => by
      by_cases party : s.isParty t.circuit = true <;> simp [placed, State.otherRoute, State.normalTarget, party]
    refine ⟨rfl, State.otherTarget_none c, fun primary alternate threshold route => ⟨fun other => ?_, fun own none => ?_,
      fun a own present => ?_⟩⟩
    · rw [State.otherTarget_circuit route, if_neg other, same]
      rfl
    · rw [State.otherTarget_circuit route, if_pos own, none]
      rfl
    · rw [State.otherTarget_circuit route, if_pos own, present, same]
      by_cases h : a.circuit = c <;> simp [Option.filter, h]
  · intro c s
    refine ⟨divertEnd_waits, fun diverting empty => ⟨s.divertDone c, divertEnd_ends diverting empty, ?_, ?_⟩⟩
    · exact ((s.onlyCircuit_refl c).set _).report _ _ _
    · simp [State.divertDone]
end

section
/-! PROOF. CANCEL_ORDER: the refusals, the queued deliveries of a record, and the one being sent (R54, R55, R114). -/

namespace Sys2Proof.Machine

/-! ### Deliveries leaving a queue (R97) -/

/-- The sent length that leaves with a delivery: that of its first entry, if it has one. -/
def Queue.lengthOf (q : Queue) (r : RecordIdx) (k : SlotIdx) : Nat :=
  ((q.entries.find? fun e => e.names r k).map QueueEntry.sentLength).getD 0

theorem Queue.leave_eq (q : Queue) (r : RecordIdx) (k : SlotIdx) : q.leave r k =
    { entries := q.entries.filter fun e => !e.names r k, count := q.count - q.lengthOf r k } := by
  unfold Queue.leave Queue.lengthOf
  cases found : q.entries.find? fun e => e.names r k with
  | some e => rfl
  | none =>
    have kept : q.entries.filter (fun e => !e.names r k) = q.entries :=
      List.filter_eq_self.mpr fun e he => by simpa using List.find?_eq_none.mp found e he
    simp [kept]

/-- Another delivery's entry stays. -/
theorem Queue.lengthOf_leave {q : Queue} {r : RecordIdx} {j k : SlotIdx} (h : j ≠ k) :
    (q.leave r k).lengthOf r j = q.lengthOf r j := by
  have apart : (fun e : QueueEntry => decide ((!e.names r k) = true ∧ e.names r j = true)) = fun e => e.names r j :=
    funext fun e => by by_cases own : e.slot = j <;> simp [QueueEntry.names, own, h]
  rw [Queue.leave_eq, Queue.lengthOf, List.find?_filter, apart, Queue.lengthOf]

/-- The deliveries of record r in the slots listed leave a queue. -/
def Queue.leaveAll (q : Queue) (r : RecordIdx) (ks : List SlotIdx) : Queue := ks.foldl (fun q k => q.leave r k) q

theorem Queue.leaveAll_eq (q : Queue) (r : RecordIdx) {ks : List SlotIdx} (apart : ks.Nodup) : q.leaveAll r ks =
    { entries := q.entries.filter fun e => !(decide (e.record = r) && decide (e.slot ∈ ks))
      count := q.count - (ks.map fun k => q.lengthOf r k).sum } := by
  induction ks generalizing q with
  | nil => simp [Queue.leaveAll]
  | cons k ks ih =>
    obtain ⟨new, apart⟩ := List.nodup_cons.mp apart
    have lengths : (ks.map fun j => (q.leave r k).lengthOf r j) = ks.map fun j => q.lengthOf r j :=
      List.map_congr_left fun j hj => Queue.lengthOf_leave fun e => new (e ▸ hj)
    have step : q.leaveAll r (k :: ks) = (q.leave r k).leaveAll r ks := rfl
    rw [step, ih _ apart, lengths, Queue.leave_eq]
    simp only [List.filter_filter, List.map_cons, List.sum_cons, Nat.sub_sub]
    congr 2
    funext e
    simp only [QueueEntry.names, List.mem_cons, Bool.decide_or]
    cases decide (e.record = r) <;> cases decide (e.slot = k) <;> simp

/-! ### The queued deliveries of a record (R54) -/

/-- A delivery as the cancel order leaves it. -/
def Delivery.cancelled (d : Delivery) : Delivery :=
  if d.state = .queued then { d with state := .cancelled } else d

theorem Delivery.cancelled_of_other {d : Delivery} (h : d.state ≠ .queued) : d.cancelled = d := if_neg h

/-- Slot k holds a delivery QUEUED on circuit c. -/
def State.queuedAt (s : State) (r : RecordIdx) (c : Circuit) (k : SlotIdx) : Bool :=
  (s.delivery r k).any fun d => d.state = .queued && d.circuit = c

section Queued

variable {s : State} {r : RecordIdx} {k : SlotIdx}

theorem cancelQueued_other (h : ∀ d, s.delivery r k = some d → d.state ≠ .queued) : cancelQueued r s k = s := by
  unfold cancelQueued
  cases at' : s.delivery r k with
  | none => rfl
  | some d => exact if_neg (h d at')

theorem cancelQueued_eq {d : Delivery} (at' : s.delivery r k = some d) (queued : d.state = .queued) :
    cancelQueued r s k = (s.setCircuit d.circuit { s.circuit d.circuit with
      queues := (s.circuit d.circuit).queues.put (s.message r).rank
        ((s.queue d.circuit (s.message r).rank).leave r k) }).setMessage r
          ((s.message r).placed k { d with state := .cancelled }) := by
  simp [cancelQueued, at', queued, Message.placed, State.queue]

/-- One slot met by a cancel order: its delivery, if QUEUED, is CANCELLED and leaves its queue. -/
theorem cancelQueued_spec (s : State) (r : RecordIdx) (k : SlotIdx) :
    s.requeued (cancelQueued r s k) r ∧
    (∀ j, (cancelQueued r s k).delivery r j =
      if j = k then (s.delivery r k).map Delivery.cancelled else s.delivery r j) ∧
    ∀ c p, (cancelQueued r s k).queue c p =
      if p = (s.message r).rank ∧ s.queuedAt r c k = true then (s.queue c p).leave r k else s.queue c p := by
  by_cases h : ∃ d, s.delivery r k = some d ∧ d.state = .queued
  · obtain ⟨d, at', queued⟩ := h
    have cancelled : d.cancelled = { d with state := .cancelled } := if_pos queued
    rw [cancelQueued_eq at' queued, ← cancelled]
    refine ⟨?_, fun j => ?_, fun c p => ?_⟩
    · refine State.requeued_of_onlyPair (c := d.circuit)
        (State.onlyPair.setRecord (State.onlyPair.set (s.onlyPair_refl _ r) _) ?_) ?_ ?_
      · rfl
      · simp [Message.placed]
      · simp
    · rw [State.delivery, State.message_setMessage_self, Message.placed_getElem, at']
      rfl
    · by_cases own : d.circuit = c
      · subst own
        by_cases rank : p = (s.message r).rank <;> simp [State.queue, Queues.get_put, State.queuedAt, at', queued, rank]
      · have elsewhere : s.queuedAt r c k = false := by simp [State.queuedAt, at', own]
        simp [State.queue, State.circuit_setCircuit_ne _ _ (Ne.symm own), elsewhere]
  · have idle : ∀ d, s.delivery r k = some d → d.state ≠ .queued := fun d at' queued => h ⟨d, at', queued⟩
    rw [cancelQueued_other idle]
    refine ⟨s.requeued_refl r, fun j => ?_, fun c p => ?_⟩
    · by_cases own : j = k
      · rw [if_pos own, own]
        cases at' : s.delivery r k with
        | none => rfl
        | some d => exact congrArg some (Delivery.cancelled_of_other (idle d at')).symm
      · rw [if_neg own]
    · have none : s.queuedAt r c k = false := by
        cases at' : s.delivery r k with
        | none => simp [State.queuedAt, at']
        | some d => simp [State.queuedAt, at', idle d at']
      simp [none]

theorem cancelAllQueued_spec (r : RecordIdx) {ks : List SlotIdx} (apart : ks.Nodup) (s : State) :
    s.requeued (ks.foldl (cancelQueued r) s) r ∧
    (∀ j, (ks.foldl (cancelQueued r) s).delivery r j =
      if j ∈ ks then (s.delivery r j).map Delivery.cancelled else s.delivery r j) ∧
    ∀ c p, (ks.foldl (cancelQueued r) s).queue c p =
      if p = (s.message r).rank then (s.queue c p).leaveAll r (ks.filter (s.queuedAt r c)) else s.queue c p := by
  induction ks generalizing s with
  | nil => exact ⟨s.requeued_refl r, fun j => by simp, fun c p => by simp [Queue.leaveAll]⟩
  | cons k ks ih =>
    obtain ⟨new, apart⟩ := List.nodup_cons.mp apart
    have ne : ∀ j ∈ ks, j ≠ k := fun j hj e => new (e ▸ hj)
    obtain ⟨first, slots, queues⟩ := cancelQueued_spec s r k
    obtain ⟨u, hu⟩ : ∃ u, u = cancelQueued r s k := ⟨_, rfl⟩
    rw [← hu] at first slots queues
    obtain ⟨rest, slots', queues'⟩ := ih apart u
    rw [List.foldl_cons, ← hu]
    have rank : (u.message r).rank = (s.message r).rank := by rw [first.2.2.1]; rfl
    have queuedAt : ∀ c, ks.filter (u.queuedAt r c) = ks.filter (s.queuedAt r c) := fun c =>
      List.filter_congr fun j hj => by
        rw [State.queuedAt, slots, if_neg (ne j hj), State.queuedAt]
    refine ⟨State.requeued_trans first rest, fun j => ?_, fun c p => ?_⟩
    · rw [slots', slots]
      by_cases mem : j ∈ ks
      · simp [mem, ne j mem]
      · by_cases own : j = k
        · simp [own, new]
        · simp [mem, own]
    · rw [queues', queues, rank, queuedAt, List.filter_cons]
      by_cases own : p = (s.message r).rank <;> cases s.queuedAt r c k <;> simp [own, Queue.leaveAll]

end Queued

/-! ### The queues as they stand after the order (R97) -/

theorem allSlots_nodup : allSlots.Nodup := List.nodup_finRange 8

theorem sum_map_filter {α : Type} (p : α → Bool) (f : α → Nat) (l : List α) :
    ((l.filter p).map f).sum = (l.map fun a => if p a then f a else 0).sum := by
  induction l with
  | nil => rfl
  | cons a l ih => cases h : p a <;> simp [h, ih]

/-- The deliveries of a record QUEUED on circuit c leave the queue of the record's precedence. -/
theorem Queue.leaveAll_queuedAt (q : Queue) (s : State) (r : RecordIdx) (c : Circuit) :
    q.leaveAll r (allSlots.filter (s.queuedAt r c)) =
      { entries := q.entries.filter fun e => !(decide (e.record = r) && s.queuedAt r c e.slot)
        count := q.count - (allSlots.map fun k => if s.queuedAt r c k then q.lengthOf r k else 0).sum } := by
  rw [Queue.leaveAll_eq _ _ (allSlots_nodup.filter _), sum_map_filter]
  congr
  funext e
  simp [allSlots]

/-! ### The delivery being sent (R55, R114) -/

section Active

variable {s : State} {r : RecordIdx} {k : SlotIdx} {d : Delivery}

theorem cancelIfActive_other (h : ∀ d, s.delivery r k = some d → d.state ≠ .active) : cancelIfActive r s k = s := by
  unfold cancelIfActive
  cases at' : s.delivery r k with
  | none => rfl
  | some d => exact if_neg (h d at')

/-- With one delivery ACTIVE, before and after, only that one is dealt with. -/
theorem cancelActives_one (at' : s.delivery r k = some d) (active : d.state = .active)
    (before : ∀ j, j ≠ k → ∀ d', s.delivery r j = some d' → d'.state ≠ .active) {t : State}
    (sending : cancelSending d.circuit s = t)
    (after : ∀ j, j ≠ k → ∀ d', t.delivery r j = some d' → d'.state ≠ .active) :
    allSlots.foldl (cancelIfActive r) s = t := by
  obtain ⟨l, l', split⟩ := List.append_of_mem (List.mem_finRange k)
  have apart : (l ++ k :: l').Nodup := split ▸ List.nodup_finRange 8
  have stays (v : State) (idle : ∀ j, j ≠ k → ∀ d', v.delivery r j = some d' → d'.state ≠ .active)
      (ks : List SlotIdx) (others : k ∉ ks) : ks.foldl (cancelIfActive r) v = v := by
    induction ks with
    | nil => rfl
    | cons j ks ih =>
      rw [List.mem_cons, not_or] at others
      rw [List.foldl_cons, cancelIfActive_other (idle j (Ne.symm others.1)), ih others.2]
  have meets : cancelIfActive r s k = t := by
    rw [← sending]
    simp only [cancelIfActive, at', active, if_true]
  have new := List.nodup_middle.mp apart
  rw [List.nodup_cons, List.mem_append, not_or] at new
  rw [allSlots, split, List.foldl_append, List.foldl_cons, stays s before l new.1.1, meets, stays t after l' new.1.2]

/-- A party circuit's scheduler changes no record (R123). -/
theorem judgeParty_messages (c : Circuit) (s : State) : (judgeParty c s).messages = s.messages := by
  have selects : ∀ e, (selectFor c e s).messages = s.messages := fun e => by
    unfold selectFor
    split <;> rfl
  unfold judgeParty
  dsimp only
  split
  · split
    · exact selects _
    · rfl
    · exact selects _
    · rfl
    · rfl
  · rfl

end Active

/-! ### The order (R54) -/

theorem cancelOrder_refused {s : State} {tag : Word} {reason : ReleaseRefusal} (h : s.tagRefusal tag = some reason) :
    cancelOrder tag s = s.raise .office tag (.releaseRefused reason) := by
  simp only [cancelOrder, h]

theorem cancelOrder_done {s : State} {tag : Word} (h : s.tagRefusal tag = none)
    (done : (s.message (tagRecord tag)).state ≠ .routed) : cancelOrder tag s = s := by
  simp only [cancelOrder, h, if_neg done]

theorem cancelOrder_routed {s : State} {tag : Word} (h : s.tagRefusal tag = none)
    (routed : (s.message (tagRecord tag)).state = .routed) :
    cancelOrder tag s = (s.queuedCircuits (tagRecord tag)).foldl (fun v c => divertEnd c v) (settle (tagRecord tag)
      (allSlots.foldl (cancelIfActive (tagRecord tag)) (allSlots.foldl (cancelQueued (tagRecord tag)) s))) := by
  simp only [cancelOrder, h, if_pos routed]

/-- With nothing QUEUED the order has no circuit whose divert it could end. -/
theorem State.queuedCircuits_none {s : State} {r : RecordIdx}
    (h : ∀ k d, s.delivery r k = some d → d.state ≠ .queued) : s.queuedCircuits r = [] := by
  refine List.filterMap_eq_nil_iff.mpr fun k _ => ?_
  cases at' : s.delivery r k with
  | none => rfl
  | some d => exact if_neg (h k d at')

/-- With its hold standing and none ACTIVE, a ROUTED record is DONE, its queued deliveries CANCELLED (R48, R54). -/
theorem cancelOrder_endsQueued {s : State} {tag : Word} (accepted : s.tagRefusal tag = none)
    (routed : (s.message (tagRecord tag)).state = .routed) (hold : (s.message (tagRecord tag)).hold = true)
    (idle : ∀ (k : SlotIdx) d, (s.message (tagRecord tag)).slots[k] = some d → d.state ≠ .active)
    (open' : ∀ c, s.isDiverting c = false) :
    ∃ t, cancelOrder tag s = t ∧
    t = { s with
      circuits := t.circuits, circuitDirty := t.circuitDirty
      messages := t.messages, messageDirty := t.messageDirty } ∧
    (∀ r', r' ≠ tagRecord tag → t.message r' = s.message r') ∧
    t.message (tagRecord tag) = { s.message (tagRecord tag) with
      state := .done, slots := Vector.ofFn fun k : SlotIdx =>
        ((s.message (tagRecord tag)).slots[k]).map Delivery.cancelled } ∧
    (∀ c, t.circuit c = { s.circuit c with queues := (t.circuit c).queues }) ∧
    ∀ c p, t.queue c p = if p = (s.message (tagRecord tag)).rank then
      (s.queue c p).leaveAll (tagRecord tag) (allSlots.filter (s.queuedAt (tagRecord tag) c)) else s.queue c p := by
  obtain ⟨requeued, slots, queues⟩ := cancelAllQueued_spec (tagRecord tag) allSlots_nodup s
  obtain ⟨u, hu⟩ : ∃ u, u = allSlots.foldl (cancelQueued (tagRecord tag)) s := ⟨_, rfl⟩
  rw [← hu] at requeued slots queues
  obtain ⟨form, others, record, circuits⟩ := requeued
  have slots' : ∀ j, u.delivery (tagRecord tag) j = (s.delivery (tagRecord tag) j).map Delivery.cancelled := fun j => by
    rw [slots, if_pos (show j ∈ allSlots from List.mem_finRange j)]
  have ended : ∀ j d, u.delivery (tagRecord tag) j = some d → d.state ≠ .queued ∧ d.state ≠ .active := fun j d there => by
    rw [slots', Option.map_eq_some_iff] at there
    obtain ⟨d', before, rfl⟩ := there
    unfold Delivery.cancelled
    split
    · exact ⟨nofun, nofun⟩
    · next other => exact ⟨other, idle j d' before⟩
  have routedU : (u.message (tagRecord tag)).state = .routed := by rw [record]; exact routed
  have idleU := (u.message (tagRecord tag)).hasPending_eq_false.mpr ended
  have finished := State.finished_eq routedU
  have atCircuit : ∀ c, (u.finished (tagRecord tag)).circuit c = u.circuit c := fun c => by rw [finished]; rfl
  have shut : ∀ c, (u.finished (tagRecord tag)).isDiverting c = false := fun c => by
    rw [State.isDiverting, atCircuit, circuits]
    exact open' c
  refine ⟨u.finished (tagRecord tag), ?_, ?_, fun r' hr => ?_, ?_, fun c => ?_, fun c p => ?_⟩
  · rw [cancelOrder_routed accepted routed, ← hu,
      List.foldl_fixed' (fun j => cancelIfActive_other fun d there => (ended j d there).2),
      settle_keeps routedU idleU (by rw [record]; exact hold),
      List.foldl_fixed' (fun c => divertEnd_waits (.inl (shut c)))]
  · rw [finished, form]
  · rw [State.message_finished_ne _ hr, others r' hr]
  · rw [State.message_finished_self]
    refine Message.eq_of_slots (by rw [record]) fun k => (slots' k).trans ?_
    rw [Fin.getElem_fin, Vector.getElem_ofFn]
    rfl
  · rw [atCircuit, circuits]
  · rw [State.queue, atCircuit, ← State.queue, queues]

/-- A finished record, as a change of the record alone (R48). -/
theorem State.onlyPair_finished {s : State} {r : RecordIdx} (c : Circuit) (routed : (s.message r).state = .routed) :
    s.onlyPair (s.finished r) c r [] := by
  have form := State.finished_eq routed
  refine ⟨?_, fun d _ => ?_, fun r' hr => s.message_finished_ne hr⟩
  · rw [form]
    rfl
  · rw [form]
    exact ⟨rfl, rfl⟩

/-- A party delivery that awaits its receipt is CANCELLED at once, and the dialogue is QUIET (R55, R114, R128). -/
theorem cancelSending_receipt {s : State} {c : Circuit} {r : RecordIdx} {k : SlotIdx} {d : Delivery}
    (phase : (s.circuit c).send.phase = .receipt) (sending : (s.circuit c).send.active = some (r, k))
    (party : s.isParty c = true) (noHold : (s.circuit c).control.holdPending = false)
    (at' : s.delivery r k = some d) (routed : (s.message r).state = .routed) (hold : (s.message r).hold = true)
    (alone : ∀ j, j ≠ k → ∀ d', s.delivery r j = some d' → d'.state ≠ .queued ∧ d'.state ≠ .active) :
    ∃ u, cancelSending c s = judge c u ∧ s.onlyPair u c r [] ∧
      u.circuit c = { s.circuit c with send := .none, dialogue := (s.circuit c).dialogue.quieted } ∧
      u.message r = { (s.message r).placed k { d with state := .cancelled } with state := .done } := by
  obtain ⟨pair, circuit, record⟩ := endActive_spec (c := c) .cancelled at'
  obtain ⟨v, hv⟩ : ∃ v, v = endActive c r k .cancelled s := ⟨_, rfl⟩
  rw [← hv] at pair circuit record
  have routedV : (v.message r).state = .routed := by rw [record]; exact routed
  have ended : (v.message r).hasPending = false := (v.message r).hasPending_eq_false.mpr fun j d' there => by
    rw [record, Message.placed_getElem] at there
    split at there
    · obtain rfl := Option.some.inj there
      exact ⟨nofun, nofun⟩
    · next ne => exact alone j ne d' there
  have finished := State.onlyPair_trans (l := []) pair (State.onlyPair_finished c routedV)
  have atFinished : (v.finished r).circuit c = { s.circuit c with send := .none } := by
    rw [State.finished_eq routedV, ← circuit]
    rfl
  obtain ⟨quiets, quiet⟩ := enterQuiet_spec c (v.finished r)
  refine ⟨enterQuiet c (v.finished r), ?_, State.onlyPair_trans (l := []) finished (State.onlyPair_of_onlyCircuit r quiets),
    by rw [quiet, atFinished], ?_⟩
  · have settled : cancelActive c s = v.finished r := by
      rw [cancelActive_eq sending, ← hv, settle_keeps routedV ended (by rw [record]; exact hold)]
    have partyV : (v.finished r).isParty c = true := by rw [State.isParty, atFinished]; exact party
    have tells : transmissionEnded c (v.finished r) = v.finished r :=
      if_neg (by rw [atFinished]; exact Bool.eq_false_iff.mp noHold)
    simp only [cancelSending, phase]
    rw [settled, afterTransmission_party partyV, tells]
  · rw [State.message_of_onlyCircuit quiets, State.message_finished_self, record]

/-- With one delivery ACTIVE and none QUEUED, that one meets the order (R55). -/
theorem cancelOrder_meetsActive {s t : State} {tag : Word} {k : SlotIdx} {d : Delivery}
    (accepted : s.tagRefusal tag = none) (routed : (s.message (tagRecord tag)).state = .routed)
    (at' : s.delivery (tagRecord tag) k = some d) (active : d.state = .active)
    (alone : ∀ j, j ≠ k → ∀ d', s.delivery (tagRecord tag) j = some d' → d'.state ≠ .queued ∧ d'.state ≠ .active)
    (sending : cancelSending d.circuit s = t)
    (after : ∀ j, j ≠ k → ∀ d', t.delivery (tagRecord tag) j = some d' → d'.state ≠ .active) :
    cancelOrder tag s = settle (tagRecord tag) t := by
  have none : ∀ j d', s.delivery (tagRecord tag) j = some d' → d'.state ≠ .queued := fun j d' there => by
    by_cases own : j = k
    · subst own
      obtain rfl : d' = d := Option.some.inj (there.symm.trans at')
      rw [active]
      decide
    · exact (alone j own d' there).1
  rw [cancelOrder_routed accepted routed, State.queuedCircuits_none none,
    List.foldl_fixed' (fun j => cancelQueued_other (none j)),
    cancelActives_one at' active (fun j hj d' there => (alone j hj d' there).2) sending after]
  rfl

/-- A change of circuits and records after a write that passes. -/
theorem State.kept_of_write {s w u : State} {a : Arbiter} (wrote : w = { s with store := w.store, arbiter := a })
    (form : u = { w with
      circuits := u.circuits, circuitDirty := u.circuitDirty
      messages := u.messages, messageDirty := u.messageDirty }) :
    u = { s with
      store := u.store, arbiter := a, messages := u.messages, messageDirty := u.messageDirty
      circuits := u.circuits, circuitDirty := u.circuitDirty } := by
  rw [State.eq_iff] at wrote form ⊢
  simp_all

end Sys2Proof.Machine
open Sys2Proof Sys2Proof.Machine

/-- Settles O33: the checks in their order, the queued deliveries, and the one being sent by its phase. -/
theorem cancelOrderEndsQueuedDeliveries : Obligations.CancelOrderEndsQueuedDeliveries := by
  unfold Obligations.CancelOrderEndsQueuedDeliveries
  intro tag s granted lawful r m refused
  obtain ⟨w, hw⟩ : ∃ w, w = passWrite (s.relayAddress 0x30) tag s := ⟨_, rfl⟩
  have wrote : s.wroteWord w (s.relayAddress 0x30) tag := hw ▸ State.wroteWord_passWrite lawful _ _
  have form : w = { s with store := w.store, arbiter := .granted .passage 0 } := by
    rw [hw, State.eq_iff]
    simp
  have atRecord : ∀ q, w.message q = s.message q := fun q => by rw [hw, State.message_passWrite]
  have taken : exec (.cancelOrder tag) s = .next (cancelOrder tag w) := by
    rw [hw]
    exact congrArg Host.Outcome.next (presentAt_order granted (o := 0x30) (by decide) rfl tag)
  have refuse (reason : ReleaseRefusal) (e : w.tagRefusal tag = some reason) : refused reason := by
    refine exec_raise_passWrite lawful (taken.trans (congrArg _ ?_))
    rw [cancelOrder_refused e, hw]
  have checks (h : tagGeneration tag = m.generation) := State.tagRefusal_current (s := w) (tag := tag) (by rw [atRecord]; exact h)
  refine ⟨fun h => refuse _ (State.tagRefusal_stale (by rw [atRecord]; exact h)),
    fun h free => refuse _ (by rw [checks h, atRecord, free]),
    fun h filling => refuse _ ?_, fun h done => ?_, fun h routed hold idle open' => ?_,
    fun k d h routed at' active alone => ?_⟩
  · rcases filling with e | e <;> rw [checks h, atRecord, e]
  · rw [cancelOrder_done (by rw [checks h, atRecord, done]) (by rw [atRecord, done]; decide)] at taken
    exact ⟨w, taken, form, wrote⟩
  · obtain ⟨t, ends, formT, others, record, circuits, queues⟩ := cancelOrder_endsQueued (s := w) (tag := tag)
      (by rw [checks h, atRecord, routed]) (by rw [atRecord, routed]) (by rw [atRecord]; exact hold)
      (by rw [atRecord]; exact idle) (fun c => by rw [form]; exact open' c)
    have atCircuit : ∀ c, w.circuit c = s.circuit c := fun c => by rw [form]; rfl
    refine ⟨t, taken.trans (congrArg _ ends), State.kept_of_write form formT, State.wroteWord_congr wrote (by rw [formT]),
      fun r' hr => (others r' hr).trans (atRecord r'), ?_, fun c => ⟨?_, fun p => ?_⟩⟩
    · rw [record, atRecord]
      rfl
    · rw [circuits, atCircuit]
    · have before : w.queue c p = s.queue c p := by rw [State.queue, atCircuit, State.queue]
      have queued : w.queuedAt r c = fun k => (m.slots[k]).any fun d => d.state = .queued && d.circuit = c :=
        funext fun k => by rw [State.queuedAt, State.delivery, atRecord]
      rw [queues, before, atRecord, Queue.leaveAll_queuedAt, queued]
      by_cases rank : p = m.rank
      · rw [if_pos rank, if_pos rank]
        exact ⟨by simp [rank, r], rfl⟩
      · simp [rank, m, r] at rank ⊢
  · intro c x sends
    have delivery : ∀ j, w.delivery r j = s.delivery r j := fun j => by rw [State.delivery, atRecord, State.delivery]
    have atCircuit : ∀ c, w.circuit c = s.circuit c := fun c => by rw [form]; rfl
    have meets {t : State} (sending : cancelSending c w = t)
        (after : ∀ j, j ≠ k → ∀ d', t.delivery r j = some d' → d'.state ≠ .active) : cancelOrder tag w = settle r t :=
      cancelOrder_meetsActive (by rw [checks h, atRecord, routed]) (by rw [atRecord, routed]) ((delivery k).trans at')
        active (fun j hj d' there => alone j hj d' ((delivery j).symm.trans there)) sending after
    have sendsWith (f : SendController → SendController) (sending : cancelSending c w = w.updSend c f) :
        sends (f x.send) := by
      obtain ⟨formT, others, circuit⟩ := w.updSend_spec c f
      have record : (w.updSend c f).message r = s.message r := atRecord r
      have stays : settle r (w.updSend c f) = w.updSend c f := by
        refine settle_stays ?_ (.inl (by rw [record, routed]; decide))
        rintro ⟨-, none⟩
        exact ((Message.hasPending_eq_false _).mp none k d (by rw [record]; exact at')).2 active
      rw [meets sending fun j hj d' there => (alone j hj d' ((delivery j).symm.trans there)).2, stays] at taken
      refine ⟨_, taken, ?_, State.wroteWord_congr wrote rfl, fun c' hc => ?_, ?_⟩
      · rw [formT, form]
      · obtain ⟨kept, mark⟩ := others c' hc
        exact ⟨kept.trans (atCircuit c'), mark.trans (by rw [form])⟩
      · rw [circuit, atCircuit]
    refine ⟨fun phase => sendsWith (fun y => { y with pendingCancel := true }) ?_,
      fun phase => sendsWith (fun y => { y with cause := some .order }) ?_, fun phase sending party noHold hold => ?_⟩
    · rcases phase with phase | phase | phase | phase <;> simp only [cancelSending, atCircuit, phase, x]
    · simp only [cancelSending, atCircuit, phase, x]
    · obtain ⟨u, judges, ⟨formU, others, records⟩, circuit, record⟩ := cancelSending_receipt (s := w) (c := c) (r := r)
        (by rw [atCircuit]; exact phase) (by rw [atCircuit]; exact sending)
        (by rw [State.isParty, atCircuit]; exact party) (by rw [atCircuit]; exact noHold) ((delivery k).trans at')
        (by rw [atRecord]; exact routed) (by rw [atRecord]; exact hold)
        (fun j hj d' there => alone j hj d' ((delivery j).symm.trans there))
      rw [meets judges fun j hj d' there => ?_] at taken
      · refine ⟨u, taken, ?_, State.wroteWord_congr wrote (by rw [formU]), fun c' hc => ?_, ?_,
          fun r' hr => (records r' hr).trans (atRecord r'), ?_⟩
        · exact State.kept_of_write form formU
        · obtain ⟨kept, mark⟩ := others c' hc
          exact ⟨kept.trans (atCircuit c'), mark.trans (by rw [form])⟩
        · rw [circuit, atCircuit]
          rfl
        · rw [record, atRecord]
          rfl
      · have partyU : u.isParty c = true := by rw [State.isParty, circuit, atCircuit]; exact party
        have same : (judge c u).message r = u.message r := by
          rw [judge_party partyU, State.message, judgeParty_messages, State.message]
        rw [State.delivery, same, record] at there
        refine (alone j hj d' ?_).2
        rw [← delivery j, State.delivery, ← there]
        exact ((Message.placed_getElem _ _ _ _).trans (if_neg hj)).symm
end
